-- ==== Sys2Proof/Word.lean ====
section
/-! DEFINITION. The words of the part: bytes of the link and of the store, 16-bit fields and 24-bit colours. -/

namespace Sys2Proof

/-- One byte of the link or of the store. -/
abbrev Byte := BitVec 8

/-- A two-byte field or digest. -/
abbrev Half := BitVec 16

/-- A 24-bit colour RRGGBBh, red in the most significant byte (00, section 4); also a signature. -/
abbrev Color := BitVec 24

/-- A 32-bit word of an Update (R149). -/
abbrev Word := BitVec 32

end Sys2Proof
end

