-- ==== Sys2Proof/Syntax.lean ====
section
/-! DEFINITION. The commands: one constructor of `Instr` for each row of spec/opcode_table.json. -/

namespace Sys2Proof

/-- The four host ports H0 to H3 (10 R191). -/
inductive PortId where
  | h0 | h1 | h2 | h3
  deriving DecidableEq, Repr

/-- The four banks B0 to B3 (06 R125). -/
inductive BankId where
  | b0 | b1 | b2 | b3
  deriving DecidableEq, Repr

/-- The commands. A row that executes a request names the port alone: the request's tag and fields are those of
the frame at the head of that port's request queue (R196; log 1). -/
inductive Instr where
  /-- RESET_N is low for this many nanoseconds or longer, and stays low (R206, R211). -/
  | resetAssert (lowNanoseconds : Nat)
  /-- RESET_N is released (R42). -/
  | resetRelease
  /-- SEL_n of the port falls (R192). -/
  | transactionStart (p : PortId)
  /-- SEL_n of the port rises: the complete bytes the host clocked in, in order, and the bits clocked after the
  last complete byte, which are ignored (R191, R193). -/
  | transactionEnd (p : PortId) (inbound : List Byte) (strayBits : Nat)
  /-- A request with an unlisted code begins to execute (R197). -/
  | unknownCode (p : PortId)
  | status (p : PortId)
  | join (p : PortId)
  | leave (p : PortId)
  | getPlan (p : PortId)
  | propose (p : PortId)
  | vote (p : PortId)
  | claimLayer (p : PortId)
  | getLayer (p : PortId)
  | setView (p : PortId)
  | setLayer (p : PortId)
  | move (p : PortId)
  | showLayer (p : PortId)
  | hideLayer (p : PortId)
  | setDepth (p : PortId)
  | setSource (p : PortId)
  | setColours (p : PortId)
  | setClip (p : PortId)
  | setPaletteBase (p : PortId)
  | publishPalette (p : PortId)
  | retireLayer (p : PortId)
  | closeBatch (p : PortId)
  | abandonBatch (p : PortId)
  | moveNow (p : PortId)
  | defineWindow (p : PortId)
  | changeWindow (p : PortId)
  | arm (p : PortId)
  | disarm (p : PortId)
  | freeWindow (p : PortId)
  | getWindow (p : PortId)
  | allocExtent (p : PortId)
  | freeExtent (p : PortId)
  | grant (p : PortId)
  | revoke (p : PortId)
  | mend (p : PortId)
  | getExtent (p : PortId)
  | seek (p : PortId)
  | write (p : PortId)
  | read (p : PortId)
  | update (p : PortId)
  | claimPalette (p : PortId)
  | releasePalette (p : PortId)
  | paletteWrite (p : PortId)
  | paletteRead (p : PortId)
  /-- The lease expiry of the port, due at the frame start just taken (R176). -/
  | leaseExpiry (p : PortId)
  /-- The time-out of the proposal, due at the frame start just taken (R186). -/
  | voteTimeout
  /-- The first pixel time of the last blank line (R36). -/
  | lineZeroFetch
  /-- The start of active line 0 (R29, R37). -/
  | frameStart
  /-- The start of an active line other than line 0 (R29, R38). -/
  | lineStart
  /-- The end of the last active line (R29, R58). -/
  | blankStart
  /-- A refresh tick of the bank (R135). -/
  | tick (b : BankId)
  /-- The row access in flight at the bank ends (R132). -/
  | accessCompletion (b : BankId)
  deriving DecidableEq, Repr

end Sys2Proof
end

