-- ==== Sys2Proof/Config.lean ====
section
/-! DEFINITION. What the spec leaves without a value. -/

namespace Sys2Proof.Config

/-- A byte of the store whose contents the spec leaves unspecified: after RESET_N (R101, R139) or after its row was
lost (R138). The first argument tells one occasion of losing the contents from another, the second is the byte's
address, 512 × global row + byte number. Nothing constrains the value (log 7, log 8). -/
opaque unspecifiedByte : Nat → Nat → Byte

/-- The level of SDO while SEL_n is low without a transaction, after a release of RESET_N that found SEL_n low (R206);
the spec states none (log 29). -/
opaque unstatedSdo : Bool

end Sys2Proof.Config
end

