-- ==== Sys2Proof/Machine/Types.lean ====
section
/-! DEFINITION. The records the blocks of the part hold, as plain data. -/

namespace Sys2Proof.Machine

/-! ### Things there are four of -/

/-- One value for each host port. -/
structure PerPort (α : Type) where
  h0 : α
  h1 : α
  h2 : α
  h3 : α
  deriving DecidableEq, Repr

/-- One value for each bank. -/
structure PerBank (α : Type) where
  b0 : α
  b1 : α
  b2 : α
  b3 : α
  deriving DecidableEq, Repr

/-! ### Layers (01) -/

/-- The pixel formats (R4). -/
inductive Format where
  | fill | marker2 | index4 | index8 | direct16
  deriving DecidableEq, Repr

/-- What a MARKER2 code yields (R14). -/
inductive CodeEntry where
  | transparent | colour1 | colour2 | colour3 | invert
  deriving DecidableEq, Repr

/-- The code map: one entry for each of the codes 0 to 3 (R4). -/
structure CodeMap where
  code0 : CodeEntry
  code1 : CodeEntry
  code2 : CodeEntry
  code3 : CodeEntry
  deriving DecidableEq, Repr

/-- A source: handle, byte offset and stride (R4). -/
structure Source where
  handle : Fin 32
  offset : Nat
  stride : Nat
  deriving DecidableEq, Repr

/-- A clip rectangle, both corners included (R8). -/
structure Clip where
  x0 : Nat
  y0 : Nat
  x1 : Nat
  y1 : Nat
  deriving DecidableEq, Repr

/-- A layer descriptor (R4). -/
structure Descriptor where
  format : Format
  z : Fin 64
  width : Nat
  height : Nat
  x : Int
  y : Int
  ax : Nat
  ay : Nat
  source : Option Source
  paletteBase : Option (Fin 64)
  key : Option Half
  codeMap : CodeMap
  c1 : Color
  c2 : Color
  c3 : Color
  fill : Color
  clip : Option Clip
  visible : Bool
  movable : Bool
  deriving DecidableEq, Repr

/-- The state of a slot that is not FREE (R1). -/
inductive HeldState where
  | owned | retiring
  deriving DecidableEq, Repr

/-- A slot record: FREE, or held by a port with a live descriptor (R1). -/
inductive Slot where
  | free
  | held (state : HeldState) (owner : PortId) (live : Descriptor)
  deriving DecidableEq, Repr

/-! ### Batches (03) -/

/-- One staged edit (R47 to R53). -/
inductive Edit where
  | setLayer (slot : Fin 16) (d : Descriptor)
  | move (slot : Fin 16) (x y : Int)
  | showSlot (slot : Fin 16)
  | hideSlot (slot : Fin 16)
  | setDepth (slot : Fin 16) (z : Fin 64)
  | setSource (slot : Fin 16) (source : Option Source)
  | setColours (slot : Fin 16) (fill c1 c2 c3 : Color) (codeMap : CodeMap) (key : Option Half)
  | setClip (slot : Fin 16) (clip : Option Clip)
  | setPaletteBase (slot : Fin 16) (base : Option (Fin 64))
  | publish (block : Fin 64)
  | retire (slot : Fin 16)
  deriving DecidableEq, Repr

inductive BatchState where
  | empty | opened | closed
  deriving DecidableEq, Repr

/-- A batch buffer (R44). -/
structure Batch where
  state : BatchState
  edits : List Edit
  target : Option Half
  deriving DecidableEq, Repr

/-- The commit engine: the layer table and one batch buffer per port (R1, R44). -/
structure CommitEngine where
  slots : Vector Slot 16
  batches : PerPort Batch
  deriving DecidableEq, Repr

/-! ### The partition plan and sessions (09) -/

/-- The five timing values (R27). -/
structure Timing where
  width : Nat
  height : Nat
  hblank : Nat
  vblank : Nat
  divider : Nat
  deriving DecidableEq, Repr

/-- A band of depth values, low to high (R179). -/
structure Band where
  low : Nat
  high : Nat
  deriving DecidableEq, Repr

/-- A port's share in a plan; no band is an empty band (R179). -/
structure Quotas where
  layers : Nat
  extents : Nat
  rows : Nat
  blocks : Nat
  windows : Nat
  band : Option Band
  deriving DecidableEq, Repr

/-- The output state (R32). -/
inductive Output where
  | dark | lit
  deriving DecidableEq, Repr

/-- A plan record (R179). -/
structure Plan where
  quotas : PerPort Quotas
  timing : Timing
  background : Color
  output : Output
  deriving DecidableEq, Repr

/-- A plan proposal (R183); its digest is computed from the plan. -/
structure Proposal where
  plan : Plan
  proposer : PortId
  voters : PerPort Bool
  accepted : PerPort Bool
  remaining : Nat
  deriving DecidableEq, Repr

/-- The plan state, with the proposal that exists in VOTING and ADOPTING (R183). -/
inductive PlanState where
  | steady
  | voting (q : Proposal)
  | adopting (q : Proposal)
  deriving DecidableEq, Repr

inductive SessionState where
  | absent | joined | draining
  deriving DecidableEq, Repr

/-- The view of Get Layer (R26). -/
inductive View where
  | live | staged
  deriving DecidableEq, Repr

inductive TeardownCause where
  | leave | expiry
  deriving DecidableEq, Repr

/-- A session record (R167). -/
structure Session where
  state : SessionState
  lease : Byte
  counter : Byte
  view : View
  cause : Option TeardownCause
  deriving DecidableEq, Repr

structure SessionUnit where
  records : PerPort Session
  plan : Plan
  planState : PlanState
  deriving DecidableEq, Repr

/-! ### Row accesses (06) -/

/-- How far one row access of a piece of work has come: waiting at its bank or about to be, granted, or completed,
with the bytes it handed over (R35, R144). -/
inductive PartStatus where
  | waiting
  | granted
  | done (bytes : List Byte)
  deriving DecidableEq, Repr

/-- The operation of an Update (R149). -/
inductive UpdateOp where
  | and | or | xor
  deriving DecidableEq, Repr

/-- What a row access does to its row (R126). `lo` is the byte number where it begins. -/
inductive AccessKind where
  | read (lo len : Nat)
  | write (lo : Nat) (bytes : List Byte)
  | update (lo : Nat) (op : UpdateOp) (operand : Word)
  | refresh
  deriving DecidableEq, Repr

/-- One row access of a piece of work; `row` is a global row (R127). -/
structure Part where
  row : Nat
  kind : AccessKind
  status : PartStatus
  deriving DecidableEq, Repr

/-- Who asked for an access (R128). -/
inductive Requester where
  | refresh
  | scan
  | transfer (p : PortId)
  | clear (p : PortId)
  deriving DecidableEq, Repr

/-- A row access between grant and completion. `wanted` is no when the requester has given up its result (R131). -/
structure Access where
  requester : Requester
  row : Nat
  kind : AccessKind
  wanted : Bool
  deriving DecidableEq, Repr

/-- The kind of a port's access, for the alternation mark (R130). -/
inductive TurnKind where
  | transfer | clear
  deriving DecidableEq, Repr

/-- A bank with its arbiter (R126, R130). -/
structure Bank where
  inFlight : Option Access
  pointer : PortId
  marks : PerPort TurnKind
  deriving DecidableEq, Repr

/-- The refresh state of one bank (R134). `fresh` holds one flag for each bank row. -/
structure RefreshBank where
  due : Fin 1024
  owed : List (Fin 1024)
  fresh : BitVec 1024
  request : Option (Fin 1024)
  ticks : Nat
  deriving DecidableEq, Repr

/-- The pattern store: the bytes written since their contents were last unspecified, by rising address, and which
unspecified contents stand behind the others (R101, R125; log 7). -/
structure Store where
  cells : List Host.Cell
  stamp : Nat
  deriving DecidableEq, Repr

/-! ### The scan engine (02) -/

inductive Phase where
  | active | blank
  deriving DecidableEq, Repr

/-- Where a layer lies on one line: the layer row, the left column of its screen rectangle, and the first and last
panel column it is drawn in (R34). -/
structure Span where
  row : Nat
  left : Int
  first : Nat
  last : Nat
  deriving DecidableEq, Repr

/-- A line record: the descriptor as taken at the fetch point, and the drawn columns when the layer is drawn on the
line (R34). -/
structure LineRecord where
  live : Descriptor
  span : Option Span
  deriving DecidableEq, Repr

/-- One entry of the fetch list of a line (R35). -/
structure FetchPart where
  slot : Fin 16
  part : Part
  deriving DecidableEq, Repr

structure ScanEngine where
  timing : Timing
  phase : Phase
  lineNo : Nat
  pixelTime : Nat
  frameCounter : Half
  output : Output
  records : Vector (Option LineRecord) 16
  fetch : List FetchPart
  marks : Vector Bool 16
  underruns : Vector Bool 16
  line : List Color
  deriving DecidableEq, Repr

/-! ### The check unit (04) -/

/-- The state of a window that is not FREE (R76). -/
inductive WinState where
  | idle | armed | running | halted
  deriving DecidableEq, Repr

inductive WinMode where
  | oneShot | continuous
  deriving DecidableEq, Repr

inductive WinScope where
  | owner | all
  deriving DecidableEq, Repr

inductive WinReport where
  | results | faults
  deriving DecidableEq, Repr

/-- The six settings of a window; no reference value is LEARN (R76). -/
structure WinSettings where
  x : Nat
  y : Nat
  w : Nat
  h : Nat
  mode : WinMode
  reference : Option Color
  threshold : Nat
  scope : WinScope
  report : WinReport
  deriving DecidableEq, Repr

inductive WinResult where
  | none | pass | fail | learned | indeterminate
  deriving DecidableEq, Repr

/-- A window record that is not FREE (R76). -/
structure Window where
  state : WinState
  owner : PortId
  settings : WinSettings
  expected : Option Color
  register : Color
  lastSignature : Option Color
  lastResult : WinResult
  consecutive : Nat
  total : Nat
  checked : Nat
  taint : Bool
  nextTaint : Bool
  deriving DecidableEq, Repr

structure CheckUnit where
  windows : Vector (Option Window) 8
  moved : Bool
  deriving DecidableEq, Repr

/-! ### The extent manager (05) -/

inductive ExtentState where
  | clearing | ready | damaged
  deriving DecidableEq, Repr

inductive GrantState where
  | none | granted | withdrawing
  deriving DecidableEq, Repr

/-- An extent record (R99). `allocator` is the port that allocated the extent: its owner until it is an orphan, the
former owner afterwards (R112), and the port whose clear list it is on (R105). -/
structure Extent where
  owner : Option PortId
  allocator : PortId
  firstRow : Nat
  rows : Nat
  state : ExtentState
  progress : Nat
  lost : Nat
  grants : PerPort GrantState
  counts : PerPort Nat
  deriving DecidableEq, Repr

structure ExtentManager where
  records : Vector (Option Extent) 32
  clearLists : PerPort (List (Fin 32))
  deriving DecidableEq, Repr

/-! ### Transfer units (07) -/

structure Cursor where
  handle : Fin 32
  offset : Nat
  deriving DecidableEq, Repr

/-- The read-ahead buffer (R140). -/
inductive ReadAhead where
  | empty
  | fetching (handle : Fin 32) (start len : Nat) (parts : List Part)
  | valid (handle : Fin 32) (start : Nat) (bytes : List Byte)
  deriving DecidableEq, Repr

/-- What the transfer in progress is (R144 to R149). -/
inductive JobKind where
  | write (count : Nat)
  | read (count : Nat)
  | readBuffered (count : Nat)
  | update
  deriving DecidableEq, Repr

/-- The transfer in progress. `damage` is the damage mark of a Read (R148), `detached` says that the port's teardown
has started meanwhile (R154). A Read that waits for the buffer has no parts of its own (R147). -/
structure Job where
  kind : JobKind
  handle : Fin 32
  offset : Nat
  parts : List Part
  damage : Bool
  detached : Bool
  deriving DecidableEq, Repr

structure TransferUnit where
  cursor : Option Cursor
  buffer : ReadAhead
  job : Option Job
  deriving DecidableEq, Repr

/-! ### The palette unit (08) -/

/-- A palette block record (R157). -/
structure PaletteBlock where
  owner : Option PortId
  live : Vector Color 16
  shadow : Vector Color 16
  dirty : Bool
  clearPending : Bool
  deriving DecidableEq, Repr

/-! ### Port controllers (10) -/

/-- The result codes (R209). -/
inductive Result where
  | ok | unknown | length | notJoined | notOwner | noObject | field | busy | full | noSpace | quota | inUse
  | notGranted | range | damaged | stale | tooLate
  deriving DecidableEq, Repr

/-- The reasons of BATCH_REJECTED (R209). -/
inductive RejectReason where
  | depthClash | outOfBand | format | sourceGone | notGranted | sourceRange | palette
  deriving DecidableEq, Repr

/-- What BATCH_REJECTED reports on (R65). -/
inductive RejectItem where
  | slot (n : Fin 16)
  | block (n : Fin 64)
  deriving DecidableEq, Repr

/-- The reasons of PLAN_FAILED (R209). -/
inductive PlanFailure where
  | timeout | voterLeft | overQuota | geometry
  deriving DecidableEq, Repr

/-- The events with their subjects and fields (R209). -/
inductive Event where
  | batchApplied (port : PortId) (firstFrame : Half) (edits : Nat)
  | batchRejected (port : PortId) (item : RejectItem) (editIndex : Nat) (reason : RejectReason)
  | clearDone (handle : Fin 32)
  | extentDamaged (handle : Fin 32) (lost : Nat)
  | grantWithdrawn (handle : Fin 32) (grantor : PortId)
  | grantEnded (handle : Fin 32) (other : PortId)
  | underrun (slot : Fin 16) (frame : Half)
  | checkResult (window : Fin 8) (result : WinResult) (signature : Color)
  | checkFault (window : Fin 8) (owner : PortId) (count : Nat) (signature : Color)
  | planProposed (proposer : PortId) (digest : Half)
  | planRejected (port : PortId)
  | planFailed (reason : PlanFailure) (port : PortId)
  | planAdopted (digest : Half)
  | peerJoined (port : PortId)
  | peerLeft (port : PortId)
  | leaseExpired
  deriving DecidableEq, Repr

/-- A queued outbound frame: a response, or an event with its repeat count (R192, R198, R200). -/
inductive Frame where
  | response (tag : Byte) (result : Result) (payload : List Byte)
  | event (e : Event) (repeats : Nat)
  deriving DecidableEq, Repr

/-- An accepted request (R193, R195). -/
structure Request where
  tag : Byte
  code : Byte
  payload : List Byte
  deriving DecidableEq, Repr

/-- The sticky flags (R203). -/
structure StickyFlags where
  overrun : Bool
  frameError : Bool
  eventsDropped : Bool
  deriving DecidableEq, Repr

/-- Which frame a transaction shifts out: an IDLE frame, the head of the outbound queue, or a frame that a lease
expiry has removed from the queue meanwhile (R192, R194). -/
inductive FixedFrame where
  | idle | head | removed
  deriving DecidableEq, Repr

/-- The transaction in progress: the frame fixed at its start with the bytes as formed, the flags its status byte
shows, and the flags set since that byte was formed (R192, R194). -/
structure Transaction where
  fixed : FixedFrame
  bytes : List Byte
  shown : StickyFlags
  since : StickyFlags
  deriving DecidableEq, Repr

structure PortController where
  selHigh : Bool
  requests : List Request
  executing : Bool
  discard : Bool
  outbound : List Frame
  flags : StickyFlags
  transaction : Option Transaction
  deriving DecidableEq, Repr

/-! ### Arrival orders (log 5) -/

/-- The sources of the frames and session changes that can reach a port controller in one step: the responses, and
each block that sends events. Used to say which arrive first (log 5). -/
inductive Origin where
  | response | commit | extents | check | session | plan | scan
  deriving DecidableEq, Repr

end Sys2Proof.Machine
end

