-- ==== Sys2Proof/Machine/Defaults.lean ====
section
/-! DEFINITION. What each block holds after RESET_N is released. -/

namespace Sys2Proof.Machine


/-- The default timing (R27, R42). -/
def defaultTiming : Timing := { width := 800, height := 480, hblank := 200, vblank := 20, divider := 2 }

/-- The default quotas with the band of one port (R181). -/
def defaultQuotas (low : Nat) : Quotas :=
  { layers := 4, extents := 8, rows := 1024, blocks := 16, windows := 2, band := some ⟨low, low + 15⟩ }

/-- The default plan (R181). -/
def defaultPlan : Plan :=
  { quotas := ⟨defaultQuotas 0, defaultQuotas 16, defaultQuotas 32, defaultQuotas 48⟩,
    timing := defaultTiming, background := 0, output := .dark }

/-- An ABSENT session record (R167, R178). -/
def absentSession : Session :=
  { state := .absent, lease := 0, counter := 0, view := .live, cause := none }

/-- An EMPTY batch buffer (R44, R45). -/
def emptyBatch : Batch := { state := .empty, edits := [], target := none }

/-- No sticky flag set (R203). -/
def noFlags : StickyFlags := { overrun := false, frameError := false, eventsDropped := false }

/-- A port controller after reset, with SEL_n at the given level (R206). -/
def resetPort (selHigh : Bool) : PortController :=
  { selHigh, requests := [], executing := false, discard := false, outbound := [], flags := noFlags,
    transaction := none }

/-- The scan engine after reset (R42). -/
def resetScan : ScanEngine :=
  { timing := defaultTiming, phase := .blank, lineNo := 0, pixelTime := 0, frameCounter := 0, output := .dark,
    records := Vector.replicate 16 none, fetch := [], marks := Vector.replicate 16 false,
    underruns := Vector.replicate 16 false, line := [] }

/-- A bank after reset (R130, R139). -/
def resetBank : Bank := { inFlight := none, pointer := .h3, marks := ⟨.clear, .clear, .clear, .clear⟩ }

/-- The refresh state of a bank after reset (R134, R139). -/
def resetRefresh : RefreshBank := { due := 0, owed := [], fresh := 0, request := none, ticks := 0 }

/-- A transfer unit after reset (R140). -/
def resetTransfer : TransferUnit := { cursor := none, buffer := .empty, job := none }

/-- A free palette block with both copies at 000000h (R157). -/
def clearedBlock : PaletteBlock :=
  { owner := none, live := Vector.replicate 16 0, shadow := Vector.replicate 16 0, dirty := false,
    clearPending := false }

end Sys2Proof.Machine
end

