-- ==== Sys2Proof/Machine/State.lean ====
section
/-! DEFINITION. The state of the part as plain data, the reasons a step can stop, and the state after reset. -/

namespace Sys2Proof.Machine

/-- The state of the MD416. The last two fields are the model's own (log 5, log 7). -/
structure State where
  pending : List Instr
  resetN : Bool
  ports : PerPort PortController
  session : SessionUnit
  commit : CommitEngine
  scan : ScanEngine
  check : CheckUnit
  extents : ExtentManager
  store : Store
  banks : PerBank Bank
  refresh : PerBank RefreshBank
  transfer : PerPort TransferUnit
  palette : Vector PaletteBlock 64
  freeCount : Nat
  arrivals : List (List Origin)
  deriving DecidableEq, Repr

/-- The part has no fault: no rule of the spec stops it. No constructor, so no meaning can answer a fault. -/
inductive Fault where
  deriving DecidableEq, Repr

/-- Why a command is refused. -/
inductive Refusal where
  /-- Raised by a row that has no meaning in the model; safe, since nothing follows from it. No row is left so. -/
  | notModelled (mnemonic : String)
  deriving DecidableEq, Repr

/-- The part right after RESET_N is released, with SEL_n high at every port (log 24) and no unspecified contents
drawn yet (log 7). -/
def State.reset : State :=
  { pending := []
    resetN := true
    ports := ⟨resetPort true, resetPort true, resetPort true, resetPort true⟩
    session := { records := ⟨absentSession, absentSession, absentSession, absentSession⟩, plan := defaultPlan,
                 planState := .steady }
    commit := { slots := Vector.replicate 16 .free, batches := ⟨emptyBatch, emptyBatch, emptyBatch, emptyBatch⟩ }
    scan := resetScan
    check := { windows := Vector.replicate 8 none, moved := false }
    extents := { records := Vector.replicate 32 none, clearLists := ⟨[], [], [], []⟩ }
    store := { cells := [], stamp := 0 }
    banks := ⟨resetBank, resetBank, resetBank, resetBank⟩
    refresh := ⟨resetRefresh, resetRefresh, resetRefresh, resetRefresh⟩
    transfer := ⟨resetTransfer, resetTransfer, resetTransfer, resetTransfer⟩
    palette := Vector.replicate 64 clearedBlock
    freeCount := 0
    arrivals := [] }

end Sys2Proof.Machine
end

