-- ==== Sys2Proof/Machine/Ops.lean ====
section
/-! DEFINITION. The named operations every block uses: access by port and bank, the store's bytes, updates of the
state block by block, and how frames produced in a step reach the port controllers. -/

namespace Sys2Proof.Machine

/-! ### Ports, banks and tables -/

/-- The ports in ascending number. -/
def allPorts : List PortId := [.h0, .h1, .h2, .h3]

/-- The banks in ascending number. -/
def allBanks : List BankId := [.b0, .b1, .b2, .b3]

/-- The number of a port. -/
def portNumber : PortId → Nat
  | .h0 => 0
  | .h1 => 1
  | .h2 => 2
  | .h3 => 3

/-- The number of a bank. -/
def bankNumber : BankId → Nat
  | .b0 => 0
  | .b1 => 1
  | .b2 => 2
  | .b3 => 3

/-- The port after this one, cyclically from H0 to H3 and back to H0 (R130). -/
def nextPort : PortId → PortId
  | .h0 => .h1
  | .h1 => .h2
  | .h2 => .h3
  | .h3 => .h0

/-- The value held for a port. -/
def PerPort.get {α : Type} (t : PerPort α) : PortId → α
  | .h0 => t.h0
  | .h1 => t.h1
  | .h2 => t.h2
  | .h3 => t.h3

/-- One port's value replaced. -/
def PerPort.set {α : Type} (t : PerPort α) (p : PortId) (v : α) : PerPort α :=
  match p with
  | .h0 => { t with h0 := v }
  | .h1 => { t with h1 := v }
  | .h2 => { t with h2 := v }
  | .h3 => { t with h3 := v }

/-- The table that holds `f p` for each port `p`. -/
def PerPort.tab {α : Type} (f : PortId → α) : PerPort α := ⟨f .h0, f .h1, f .h2, f .h3⟩

/-- The value held for a bank. -/
def PerBank.get {α : Type} (t : PerBank α) : BankId → α
  | .b0 => t.b0
  | .b1 => t.b1
  | .b2 => t.b2
  | .b3 => t.b3

/-- One bank's value replaced. -/
def PerBank.set {α : Type} (t : PerBank α) (b : BankId) (v : α) : PerBank α :=
  match b with
  | .b0 => { t with b0 := v }
  | .b1 => { t with b1 := v }
  | .b2 => { t with b2 := v }
  | .b3 => { t with b3 := v }

/-- The table that holds `f b` for each bank `b`. -/
def PerBank.tab {α : Type} (f : BankId → α) : PerBank α := ⟨f .b0, f .b1, f .b2, f .b3⟩

/-- The vector that holds `f i` at each index `i`. -/
def tabulate {α : Type} {n : Nat} (f : Fin n → α) : Vector α n := ⟨⟨List.ofFn f⟩, by simp⟩

/-- The lowest index at which `q` holds. -/
def lowest {n : Nat} (q : Fin n → Bool) : Option (Fin n) := (List.finRange n).find? q

/-- How many indexes `q` holds at. -/
def howMany {n : Nat} (q : Fin n → Bool) : Nat := (List.finRange n).countP q

/-! ### The store's bytes (06) -/

/-- The number of global rows (R125). -/
def storeRows : Nat := 4096

/-- The number of bytes of a row (R125). -/
def rowBytes : Nat := 512

/-- The number of bytes of the store (R125). -/
def storeBytes : Nat := 2097152

/-- The bank of a global row (R125). -/
def bankOfRow (g : Nat) : BankId :=
  match g % 4 with
  | 0 => .b0
  | 1 => .b1
  | 2 => .b2
  | _ => .b3

/-- The bank row of a global row (R125). -/
def bankRowOf (g : Nat) : Fin 1024 := Fin.ofNat 1024 (g / 4)

/-- The global row of a bank row of a bank (R125). -/
def globalRowOf (b : BankId) (r : Fin 1024) : Nat := 4 * r.val + bankNumber b

/-- The address of a byte of a global row. -/
def byteAddress (g lo : Nat) : Nat := rowBytes * g + lo

/-- What the listed cells hold at an address; none where nothing has been written (log 7). -/
def Memory.read (cells : List Host.Cell) (a : Nat) : Option Byte :=
  (cells.find? fun c => c.1 == a).map Prod.snd

/-- The cells after `bytes` are written at address `a` and on. -/
def Memory.write (cells : List Host.Cell) (a : Nat) (bytes : List Byte) : List Host.Cell :=
  cells.filter (fun c => decide (c.1 < a)) ++ bytes.zipIdx.map (fun b => (a + b.2, b.1)) ++
    cells.filter (fun c => decide (a + bytes.length ≤ c.1))

/-- The addresses of the cells rise strictly. -/
def Memory.rising : List Host.Cell → Bool
  | [] => true
  | [_] => true
  | c :: d :: rest => decide (c.1 < d.1) && Memory.rising (d :: rest)

/-- The canonical form of the store: addresses strictly rising, each inside the store. No cell can equal what an
unlisted address reads as, since that is no value. -/
def Memory.wf (cells : List Host.Cell) : Bool :=
  Memory.rising cells && cells.all fun c => decide (c.1 < storeBytes)

/-- The byte the store holds at an address: the listed one, else the unspecified one (R101, R138; log 7). -/
def Store.byteAt (m : Store) (a : Nat) : Byte :=
  (Memory.read m.cells a).getD (Config.unspecifiedByte m.stamp a)

/-- `len` bytes of a global row from byte `lo` on. -/
def Store.bytesAt (m : Store) (g lo len : Nat) : List Byte :=
  (List.range len).map fun i => m.byteAt (byteAddress g (lo + i))

/-- `bytes` written to a global row from byte `lo` on. Bytes past the end of the row do not exist and are not
written. -/
def Store.writeAt (m : Store) (g lo : Nat) (bytes : List Byte) : Store :=
  if g < storeRows then
    { m with cells := Memory.write m.cells (byteAddress g lo) (bytes.take (rowBytes - lo)) }
  else m

/-! ### Updates of the state -/

/-- The controller of a port replaced. -/
def State.setPort (s : State) (p : PortId) (c : PortController) : State := { s with ports := s.ports.set p c }

/-- The session record of a port replaced. -/
def State.setSession (s : State) (p : PortId) (r : Session) : State :=
  { s with session := { s.session with records := s.session.records.set p r } }

/-- The plan state replaced. -/
def State.setPlanState (s : State) (q : PlanState) : State :=
  { s with session := { s.session with planState := q } }

/-- A slot of the layer table replaced. -/
def State.setSlot (s : State) (l : Fin 16) (r : Slot) : State :=
  { s with commit := { s.commit with slots := s.commit.slots.set l.val r l.isLt } }

/-- The batch buffer of a port replaced. -/
def State.setBatch (s : State) (p : PortId) (b : Batch) : State :=
  { s with commit := { s.commit with batches := s.commit.batches.set p b } }

/-- A window record replaced. -/
def State.setWindow (s : State) (w : Fin 8) (r : Option Window) : State :=
  { s with check := { s.check with windows := s.check.windows.set w.val r w.isLt } }

/-- An extent record replaced. -/
def State.setExtent (s : State) (h : Fin 32) (e : Option Extent) : State :=
  { s with extents := { s.extents with records := s.extents.records.set h.val e h.isLt } }

/-- The clear list of a port replaced. -/
def State.setClearList (s : State) (p : PortId) (l : List (Fin 32)) : State :=
  { s with extents := { s.extents with clearLists := s.extents.clearLists.set p l } }

/-- A bank replaced. -/
def State.setBank (s : State) (b : BankId) (k : Bank) : State := { s with banks := s.banks.set b k }

/-- The refresh state of a bank replaced. -/
def State.setRefresh (s : State) (b : BankId) (r : RefreshBank) : State := { s with refresh := s.refresh.set b r }

/-- The transfer unit of a port replaced. -/
def State.setTransfer (s : State) (p : PortId) (u : TransferUnit) : State :=
  { s with transfer := s.transfer.set p u }

/-- A palette block replaced. -/
def State.setBlock (s : State) (b : Fin 64) (r : PaletteBlock) : State :=
  { s with palette := s.palette.set b.val r b.isLt }

/-! ### Reads of the state -/

/-- The session state of a port. -/
def State.sessionState (s : State) (p : PortId) : SessionState := (s.session.records.get p).state

/-- The session of the port is JOINED. -/
def State.joined (s : State) (p : PortId) : Bool := decide (s.sessionState p = .joined)

/-- The quotas of a port in the plan in force (R182). -/
def State.quotas (s : State) (p : PortId) : Quotas := s.session.plan.quotas.get p

/-- The record of an extent. -/
def State.extent (s : State) (h : Fin 32) : Option Extent := s.extents.records[h]

/-- A slot of the layer table. -/
def State.slot (s : State) (l : Fin 16) : Slot := s.commit.slots[l]

/-- A window record. -/
def State.window (s : State) (w : Fin 8) : Option Window := s.check.windows[w]

/-- A palette block. -/
def State.block (s : State) (b : Fin 64) : PaletteBlock := s.palette[b]

/-- The size of an extent in bytes (R99). -/
def Extent.size (e : Extent) : Nat := e.rows * rowBytes

/-- The slot is OWNED by the port. -/
def Slot.ownedBy (p : PortId) : Slot → Bool
  | .held .owned q _ => decide (q = p)
  | _ => false

/-- The slot is OWNED or RETIRING with this owner. -/
def Slot.heldBy (p : PortId) : Slot → Bool
  | .held _ q _ => decide (q = p)
  | .free => false

/-- The live descriptor of a slot that is not FREE. -/
def Slot.live? : Slot → Option Descriptor
  | .held _ _ d => some d
  | .free => none

/-- The block is owned by the port. -/
def PaletteBlock.ownedBy (p : PortId) (b : PaletteBlock) : Bool := decide (b.owner = some p)

/-- The window is not FREE and owned by the port. -/
def windowOwnedBy (p : PortId) (w : Option Window) : Bool :=
  match w with
  | some r => decide (r.owner = p)
  | none => false

/-- The extent is allocated and owned by the port. -/
def extentOwnedBy (p : PortId) (e : Option Extent) : Bool :=
  match e with
  | some r => decide (r.owner = some p)
  | none => false

/-! ### What one step sends to the port controllers -/

/-- What reaches a port controller or the session unit at the end of a step. -/
inductive Msg where
  | respond (p : PortId) (result : Result) (payload : List Byte)
  | event (p : PortId) (e : Event)
  | sessionEnd (p : PortId)
  deriving DecidableEq, Repr

/-- A state and what has been sent on the way to it, in the order sent. -/
structure Act where
  st : State
  out : List (Origin × Msg)
  deriving DecidableEq, Repr

/-- Nothing sent. -/
def Act.quiet (s : State) : Act := ⟨s, []⟩

/-- A further action; what it sends is sent after. -/
def Act.andThen (a : Act) (f : State → Act) : Act := ⟨(f a.st).st, a.out ++ (f a.st).out⟩

/-- A further change of the state that sends nothing. -/
def Act.change (a : Act) (f : State → State) : Act := ⟨f a.st, a.out⟩

/-- A message sent. -/
def Act.send (a : Act) (o : Origin) (m : Msg) : Act := ⟨a.st, a.out ++ [(o, m)]⟩

/-- One event sent to each of the ports. -/
def Act.sendAll (a : Act) (o : Origin) (ps : List PortId) (e : Event) : Act :=
  ⟨a.st, a.out ++ ps.map fun p => (o, Msg.event p e)⟩

/-- An action taken for each element of a list, in order. -/
def Act.forEach {α : Type} (a : Act) (l : List α) (f : α → State → Act) : Act :=
  l.foldl (fun b x => b.andThen (f x)) a

/-- What one step sent, with the messages of the origins named first arriving first; each origin's own messages, and
those of the origins not named, keep their order (R29, R175; log 5, log 6). Between the steps of one frame start the
order is fixed (log 4, log 35). -/
def arrange (order : List Origin) (out : List (Origin × Msg)) : List Msg :=
  match order with
  | [] => out.map Prod.snd
  | o :: rest =>
    (out.filter fun m => decide (m.1 = o)).map Prod.snd ++ arrange rest (out.filter fun m => decide (m.1 ≠ o))

/-! ### Frames arriving at a port controller (10) -/

/-- The response is handed over: the request it answers leaves the request queue, and the response goes to the tail
of the outbound queue, unless it is to be discarded (R176, R196, R198). -/
def PortController.takeResponse (c : PortController) (result : Result) (payload : List Byte) : PortController :=
  match c.requests with
  | [] => c
  | r :: rest =>
    { c with requests := rest, executing := false, discard := false,
             outbound := if c.discard then c.outbound else c.outbound ++ [.response r.tag result payload] }

/-- The frame is an event. -/
def Frame.isEvent : Frame → Bool
  | .event _ _ => true
  | .response _ _ _ => false

/-- The frame is a response. -/
def Frame.isResponse : Frame → Bool
  | .response _ _ _ => true
  | .event _ _ => false

/-- The greatest number of events in an outbound queue (R199). -/
def maxEvents : Nat := 12

/-- The two events have the same code and the same subject (R200, R209). Events without a subject match on the code
alone. -/
def Event.sameSubject : Event → Event → Bool
  | .batchApplied p _ _, .batchApplied q _ _ => decide (p = q)
  | .batchRejected p _ _ _, .batchRejected q _ _ _ => decide (p = q)
  | .clearDone h, .clearDone k => decide (h = k)
  | .extentDamaged h _, .extentDamaged k _ => decide (h = k)
  | .grantWithdrawn h _, .grantWithdrawn k _ => decide (h = k)
  | .grantEnded h _, .grantEnded k _ => decide (h = k)
  | .underrun l _, .underrun m _ => decide (l = m)
  | .checkResult w _ _, .checkResult v _ _ => decide (w = v)
  | .checkFault w _ _ _, .checkFault v _ _ _ => decide (w = v)
  | .planProposed p _, .planProposed q _ => decide (p = q)
  | .planRejected p, .planRejected q => decide (p = q)
  | .planFailed _ _, .planFailed _ _ => true
  | .planAdopted d, .planAdopted e => decide (d = e)
  | .peerJoined p, .peerJoined q => decide (p = q)
  | .peerLeft p, .peerLeft q => decide (p = q)
  | .leaseExpired, .leaseExpired => true
  | _, _ => false

/-- The event coalesced into the newest queued event of the same code and subject: its payload replaced and its
repeat count raised by one up to 255; none when no queued event matches (R200). -/
def coalesce (e : Event) : List Frame → Option (List Frame)
  | [] => none
  | f :: rest =>
    match coalesce e rest with
    | some rest' => some (f :: rest')
    | none =>
      match f with
      | .event old n => if old.sameSubject e then some (.event e (min 255 (n + 1)) :: rest) else none
      | .response _ _ _ => none

/-- The queue's head is the frame of the transaction in progress (R192). -/
def PortController.headFixed (c : PortController) : Bool :=
  match c.transaction with
  | some t => decide (t.fixed = .head)
  | none => false

/-- EVENTS_DROPPED is set, also among the flags set during the transaction in progress (R194, R203). -/
def PortController.dropEvent (c : PortController) : PortController :=
  { c with flags := { c.flags with eventsDropped := true },
           transaction := c.transaction.map fun t => { t with since := { t.since with eventsDropped := true } } }

/-- An arriving event is appended, coalesced or dropped (R200). The frame fixed for a transaction in progress is
passed over in the search. -/
def PortController.takeEvent (c : PortController) (e : Event) : PortController :=
  if c.outbound.countP Frame.isEvent < maxEvents then { c with outbound := c.outbound ++ [.event e 1] }
  else if c.headFixed then
    match coalesce e c.outbound.tail with
    | some q => { c with outbound := c.outbound.take 1 ++ q }
    | none => c.dropEvent
  else
    match coalesce e c.outbound with
    | some q => { c with outbound := q }
    | none => c.dropEvent

/-- Whether a port controller takes an arriving event, by its session (R201). -/
def Session.takesEvents (r : Session) : Bool :=
  match r.state with
  | .joined => true
  | .draining => decide (r.cause = some .leave)
  | .absent => false

/-- One message arrives. -/
def State.deliver (s : State) (m : Msg) : State :=
  match m with
  | .respond p result payload => s.setPort p ((s.ports.get p).takeResponse result payload)
  | .event p e =>
    if (s.session.records.get p).takesEvents then s.setPort p ((s.ports.get p).takeEvent e) else s
  | .sessionEnd p => s.setSession p absentSession

/-- The messages of a step arrive in the order the next entry of `arrivals` names, the entry used up (log 5). -/
def Act.settle (a : Act) : State :=
  (arrange (a.st.arrivals.headD []) a.out).foldl State.deliver { a.st with arrivals := a.st.arrivals.tail }

end Sys2Proof.Machine
end

