-- ==== Sys2Proof/Machine/Codec.lean ====
section
/-! DEFINITION. Bytes as they stand on the link: check values, codes, records and frames (R207 to R209). -/

namespace Sys2Proof.Machine

/-! ### Check values (00, section 3) -/

/-- One bit into a check register: the exclusive-or of the bit and the register's most significant bit decides
whether the shifted register is combined with the generator (R88). -/
def crcBit {n : Nat} (generator : BitVec n) (r : BitVec n) (bit : Bool) : BitVec n :=
  if bit ^^ r.msb then (r <<< 1) ^^^ generator else r <<< 1

/-- One byte into a check register, most significant bit first. -/
def crcByte {n : Nat} (generator : BitVec n) (r : BitVec n) (b : Byte) : BitVec n :=
  [7, 6, 5, 4, 3, 2, 1, 0].foldl (fun r i => crcBit generator r (b.getLsbD i)) r

/-- CRC-8 of the link: polynomial 2Fh, initial value FFh. -/
def crc8 (bytes : List Byte) : Byte := bytes.foldl (crcByte 0x2F#8) 0xFF#8

/-- CRC-16 of the plan digest: polynomial 1021h, initial value FFFFh. -/
def crc16 (bytes : List Byte) : Half := bytes.foldl (crcByte 0x1021#16) 0xFFFF#16

/-- The start value of a signature (R86). -/
def signatureStart : Color := 0xFFFFFF#24

/-- One pixel into a signature register: red, then green, then blue (R87, R88). -/
def signPixel (r : Color) (c : Color) : Color :=
  [c.extractLsb' 16 8, c.extractLsb' 8 8, c.extractLsb' 0 8].foldl (crcByte 0x7A4C35#24) r

/-! ### Fields, most significant byte first (R207) -/

def byteOf (n : Nat) : Byte := BitVec.ofNat 8 n

/-- A two-byte field. -/
def encode16 (n : Nat) : List Byte := [byteOf (n / 256), byteOf n]

/-- A three-byte field. -/
def encode24 (n : Nat) : List Byte := [byteOf (n / 65536), byteOf (n / 256), byteOf n]

/-- A four-byte field. -/
def encode32 (n : Nat) : List Byte := [byteOf (n / 16777216), byteOf (n / 65536), byteOf (n / 256), byteOf n]

/-- A signed two-byte field in two's complement. -/
def encodeSigned (i : Int) : List Byte := encode16 (BitVec.ofInt 16 i).toNat

/-- A colour: R, G, B. -/
def encodeColor (c : Color) : List Byte := encode24 c.toNat

/-- The number that the bytes spell, the first the most significant. -/
def decodeNat (bytes : List Byte) : Nat := bytes.foldl (fun n b => 256 * n + b.toNat) 0

/-- A port byte: 0 to 3, FFh for none (R207). -/
def encodeOwner : Option PortId → Byte
  | some p => byteOf (portNumber p)
  | none => 0xFF#8

def encodePort (p : PortId) : Byte := byteOf (portNumber p)

/-- A set of ports as a mask, bit n for port n (11.2). -/
def encodePortSet (v : PerPort Bool) : Byte :=
  byteOf (v.h0.toNat + 2 * v.h1.toNat + 4 * v.h2.toNat + 8 * v.h3.toNat)

/-! ### Codes -/

def encodeView : View → Byte
  | .live => 0
  | .staged => 1

def sessionCode : SessionState → Nat
  | .absent => 0
  | .joined => 1
  | .draining => 2

def planStateCode : PlanState → Byte
  | .steady => 0
  | .voting _ => 1
  | .adopting _ => 2

def batchStateCode : BatchState → Byte
  | .empty => 0
  | .opened => 1
  | .closed => 2

def heldStateCode : HeldState → Byte
  | .owned => 1
  | .retiring => 2

def extentStateCode : ExtentState → Byte
  | .clearing => 0
  | .ready => 1
  | .damaged => 2

def grantCode : GrantState → Byte
  | .none => 0
  | .granted => 1
  | .withdrawing => 2

def winStateCode : WinState → Byte
  | .idle => 1
  | .armed => 2
  | .running => 3
  | .halted => 4

def winResultCode : WinResult → Byte
  | .none => 0
  | .pass => 1
  | .fail => 2
  | .learned => 3
  | .indeterminate => 4

def formatCode : Format → Byte
  | .fill => 0
  | .marker2 => 1
  | .index4 => 2
  | .index8 => 3
  | .direct16 => 4

def codeEntryCode : CodeEntry → Nat
  | .transparent => 0
  | .colour1 => 1
  | .colour2 => 2
  | .colour3 => 3
  | .invert => 4

def outputCode : Output → Byte
  | .dark => 0
  | .lit => 1

/-- The result codes (R209). -/
def resultCode : Result → Byte
  | .ok => 0x00
  | .unknown => 0x01
  | .length => 0x02
  | .notJoined => 0x03
  | .notOwner => 0x04
  | .noObject => 0x05
  | .field => 0x06
  | .busy => 0x07
  | .full => 0x08
  | .noSpace => 0x09
  | .quota => 0x0A
  | .inUse => 0x0B
  | .notGranted => 0x0C
  | .range => 0x0D
  | .damaged => 0x0E
  | .stale => 0x0F
  | .tooLate => 0x10

/-- The reasons of BATCH_REJECTED (R209). -/
def rejectCode : RejectReason → Byte
  | .depthClash => 1
  | .outOfBand => 2
  | .format => 3
  | .sourceGone => 4
  | .notGranted => 5
  | .sourceRange => 6
  | .palette => 7

/-- The reasons of PLAN_FAILED (R209). -/
def planFailureCode : PlanFailure → Byte
  | .timeout => 1
  | .voterLeft => 2
  | .overQuota => 3
  | .geometry => 4

/-! ### Records (11.3) -/

/-- The code map: code 0 in bits 2-0 to code 3 in bits 11-9. -/
def encodeCodeMap (m : CodeMap) : List Byte :=
  encode16 (codeEntryCode m.code0 + 8 * codeEntryCode m.code1 + 64 * codeEntryCode m.code2 +
    512 * codeEntryCode m.code3)

def encodeClip (c : Option Clip) : List Byte :=
  match c with
  | some k => encode16 k.x0 ++ encode16 k.y0 ++ encode16 k.x1 ++ encode16 k.y1
  | none => List.replicate 8 0

/-- The handle, offset and stride of a source; absent, they are returned as 00h (R207). -/
def encodeSource (o : Option Source) : List Byte :=
  match o with
  | some k => byteOf k.handle.val :: (encode24 k.offset ++ encode16 k.stride)
  | none => List.replicate 6 0

/-- The flags byte of a descriptor. -/
def descriptorFlags (d : Descriptor) : Byte :=
  byteOf (d.visible.toNat + 2 * d.movable.toNat + 4 * d.source.isSome.toNat + 8 * d.paletteBase.isSome.toNat +
    16 * d.key.isSome.toNat + 32 * d.clip.isSome.toNat)

/-- A layer descriptor, 46 bytes. -/
def encodeDescriptor (d : Descriptor) : List Byte :=
  [formatCode d.format, byteOf d.z.val] ++ encode16 d.width ++ encode16 d.height ++ encodeSigned d.x ++
  encodeSigned d.y ++ encode16 d.ax ++ encode16 d.ay ++ [descriptorFlags d] ++ encodeSource d.source ++
  [byteOf (d.paletteBase.elim 0 Fin.val)] ++ encode16 (d.key.elim 0 BitVec.toNat) ++ encodeCodeMap d.codeMap ++
  encodeColor d.fill ++ encodeColor d.c1 ++ encodeColor d.c2 ++ encodeColor d.c3 ++ encodeClip d.clip

/-- The two band bytes; FFh in both for an empty band. -/
def encodeBand : Option Band → List Byte
  | some b => [byteOf b.low, byteOf b.high]
  | none => [0xFF#8, 0xFF#8]

/-- One port's share of a plan, 8 bytes. -/
def encodeQuotas (q : Quotas) : List Byte :=
  [byteOf q.layers, byteOf q.extents] ++ encode16 q.rows ++ [byteOf q.blocks, byteOf q.windows] ++
    encodeBand q.band

/-- A plan record, 44 bytes. -/
def encodePlan (k : Plan) : List Byte :=
  encodeQuotas k.quotas.h0 ++ encodeQuotas k.quotas.h1 ++ encodeQuotas k.quotas.h2 ++ encodeQuotas k.quotas.h3 ++
  encode16 k.timing.width ++ encode16 k.timing.height ++ encode16 k.timing.hblank ++
  [byteOf k.timing.vblank, byteOf k.timing.divider] ++ encodeColor k.background ++ [outputCode k.output]

/-- The digest of a plan (R179). -/
def planDigest (k : Plan) : Half := crc16 (encodePlan k)

/-- The options byte of window settings. -/
def windowOptions (w : WinSettings) : Byte :=
  byteOf ((decide (w.mode = .continuous)).toNat + 2 * w.reference.isNone.toNat +
    4 * (decide (w.scope = .all)).toNat + 8 * (decide (w.report = .faults)).toNat)

/-- Window settings, 13 bytes; the reference value bytes of LEARN are returned as 00h (log 17). -/
def encodeSettings (w : WinSettings) : List Byte :=
  encode16 w.x ++ encode16 w.y ++ encode16 w.w ++ encode16 w.h ++ [windowOptions w, byteOf w.threshold] ++
    encodeColor (w.reference.getD 0)

/-- The window record that Get Window returns, 28 bytes (R85). -/
def encodeWindow (w : Window) : List Byte :=
  [winStateCode w.state, encodePort w.owner] ++ encodeSettings w.settings ++
  [byteOf (w.expected.isSome.toNat + 2 * w.lastSignature.isSome.toNat + 4 * w.taint.toNat)] ++
  encodeColor (w.expected.getD 0) ++ encodeColor (w.lastSignature.getD 0) ++
  [winResultCode w.lastResult, byteOf w.consecutive] ++ encode16 w.total ++ encode16 w.checked

/-! ### Events (R209) -/

/-- The event's code. -/
def eventCode : Event → Byte
  | .batchApplied _ _ _ => 0x01
  | .batchRejected _ _ _ _ => 0x02
  | .clearDone _ => 0x03
  | .extentDamaged _ _ => 0x04
  | .grantWithdrawn _ _ => 0x05
  | .grantEnded _ _ => 0x06
  | .underrun _ _ => 0x07
  | .checkResult _ _ _ => 0x08
  | .checkFault _ _ _ _ => 0x09
  | .planProposed _ _ => 0x0A
  | .planRejected _ => 0x0B
  | .planFailed _ _ => 0x0C
  | .planAdopted _ => 0x0D
  | .peerJoined _ => 0x0E
  | .peerLeft _ => 0x0F
  | .leaseExpired => 0x10

/-- The item kind and item number of BATCH_REJECTED. -/
def encodeItem : RejectItem → List Byte
  | .slot l => [0, byteOf l.val]
  | .block b => [1, byteOf b.val]

/-- The event's subject, its first payload bytes. -/
def eventSubject : Event → List Byte
  | .batchApplied p _ _ => [encodePort p]
  | .batchRejected p _ _ _ => [encodePort p]
  | .clearDone h => [byteOf h.val]
  | .extentDamaged h _ => [byteOf h.val]
  | .grantWithdrawn h _ => [byteOf h.val]
  | .grantEnded h _ => [byteOf h.val]
  | .underrun l _ => [byteOf l.val]
  | .checkResult w _ _ => [byteOf w.val]
  | .checkFault w _ _ _ => [byteOf w.val]
  | .planProposed p _ => [encodePort p]
  | .planRejected p => [encodePort p]
  | .planFailed _ _ => []
  | .planAdopted d => encode16 d.toNat
  | .peerJoined p => [encodePort p]
  | .peerLeft p => [encodePort p]
  | .leaseExpired => []

/-- The event's fields after the subject. -/
def eventFields : Event → List Byte
  | .batchApplied _ n k => encode16 n.toNat ++ [byteOf k]
  | .batchRejected _ i k r => encodeItem i ++ [byteOf k, rejectCode r]
  | .clearDone _ => []
  | .extentDamaged _ n => [byteOf n]
  | .grantWithdrawn _ p => [encodePort p]
  | .grantEnded _ p => [encodePort p]
  | .underrun _ n => encode16 n.toNat
  | .checkResult _ r c => winResultCode r :: encodeColor c
  | .checkFault _ p n c => [encodePort p, byteOf n] ++ encodeColor c
  | .planProposed _ d => encode16 d.toNat
  | .planRejected _ => []
  | .planFailed r p => [planFailureCode r, encodePort p]
  | .planAdopted _ => []
  | .peerJoined _ => []
  | .peerLeft _ => []
  | .leaseExpired => []

/-! ### Frames (11.4) -/

/-- A frame's bytes from the kind byte to the last payload byte. -/
def frameBody : Frame → List Byte
  | .response tag result payload => [0x01#8, tag, resultCode result, byteOf payload.length] ++ payload
  | .event e n =>
    [0x02#8, eventCode e, byteOf n, byteOf (eventSubject e ++ eventFields e).length] ++ eventSubject e ++
      eventFields e

/-- The body of an IDLE frame. -/
def idleBody : List Byte := [0, 0, 0, 0]

/-- The outbound frame with its status byte in front and its check byte behind (R192). -/
def sealFrame (status : Byte) (body : List Byte) : List Byte := status :: body ++ [crc8 (status :: body)]

/-- The bytes of a request frame as a host sends it (R193). -/
def requestFrame (r : Request) : List Byte :=
  let front := [byteOf r.payload.length, r.tag, r.code] ++ r.payload
  front ++ [crc8 front]

end Sys2Proof.Machine
end

