-- ==== Sys2Proof/Machine/Flags.lean ====
section
/-! DEFINITION. What is computed from a port's queues and flags: the response credit, the status byte, the clearing
of sticky flags, and the notices of the session unit that they show. -/

namespace Sys2Proof.Machine

/-- The response credit: 4 less the accepted requests not yet answered and the responses not yet delivered
(R195). -/
def credit (c : PortController) : Nat := 4 - (c.requests.length + c.outbound.countP Frame.isResponse)

/-- The port is a voter whose vote is still due (R202). -/
def voteDue (q : PlanState) (p : PortId) : Bool :=
  match q with
  | .voting v => v.voters.get p && !v.accepted.get p
  | _ => false

/-- MORE: at least one queued frame besides the one being shifted out (R202). An IDLE frame is shifted out only when
the queue is empty. -/
def moreFlag (c : PortController) : Bool := decide (2 ≤ c.outbound.length)

/-- The status byte as it stands (R202, 11.4). -/
def statusByte (c : PortController) (session : SessionState) (voting : Bool) : Byte :=
  byteOf (128 * (moreFlag c).toNat + 64 * c.flags.overrun.toNat + 32 * c.flags.frameError.toNat +
    16 * c.flags.eventsDropped.toNat + 4 * sessionCode session + 2 * voting.toNat)

/-- The sticky flags after the delivery of a frame: each flag its status byte showed is cleared, unless it was set
again since (R194, R203). -/
def clearShown (now shown since : StickyFlags) : StickyFlags :=
  { overrun := now.overrun && !(shown.overrun && !since.overrun)
    frameError := now.frameError && !(shown.frameError && !since.frameError)
    eventsDropped := now.eventsDropped && !(shown.eventsDropped && !since.eventsDropped) }

/-- The level of ATN_n: low while the outbound queue holds a frame, high while it is empty and during RESET_N (R204,
R206, R211). -/
def atnHigh (resetN : Bool) (c : PortController) : Bool := !resetN || c.outbound.isEmpty

end Sys2Proof.Machine
end

