-- ==== Sys2Proof/Machine/Operands.lean ====
section
/-! DEFINITION. The operands of requests: the fields of a request's payload, read by the encoding rules of R207. Each
reader answers none where a field is outside its range, which its block answers FIELD. -/

namespace Sys2Proof.Machine

/-! ### Parts of a payload -/

/-- The payload byte at a position. -/
def fieldByte (bytes : List Byte) (i : Nat) : Nat := (bytes.getD i 0).toNat

/-- The unsigned field of `n` bytes at a position, most significant byte first. -/
def field (bytes : List Byte) (i n : Nat) : Nat := decodeNat ((bytes.drop i).take n)

/-- The signed two-byte field at a position (R207). -/
def fieldSigned (bytes : List Byte) (i : Nat) : Int := (BitVec.ofNat 16 (field bytes i 2)).toInt

/-- The colour at a position. -/
def fieldColor (bytes : List Byte) (i : Nat) : Color := BitVec.ofNat 24 (field bytes i 3)

/-- A number below `n` as an index. -/
def below (n v : Nat) : Option (Fin n) := if h : v < n then some ⟨v, h⟩ else none

/-- A number from `lo` to `hi`. -/
def within (lo hi v : Nat) : Option Nat := if lo ≤ v ∧ v ≤ hi then some v else none

/-- A panel position: −4,096 to +4,095 (R4). -/
def position (v : Int) : Option Int := if -4096 ≤ v ∧ v ≤ 4095 then some v else none

/-- A port number 0 to 3. -/
def decodePort : Nat → Option PortId
  | 0 => some .h0
  | 1 => some .h1
  | 2 => some .h2
  | 3 => some .h3
  | _ => none

/-- A presence byte: 00h absent, 01h present, any other value out of range (R207). An absent field's bytes are
ignored. -/
def optionalBy {α : Type} (presence : Nat) (read : Option α) : Option (Option α) :=
  match presence with
  | 0 => some none
  | 1 => read.map some
  | _ => none

/-- A field announced by a presence bit (R207). -/
def announcedBy {α : Type} (present : Bool) (read : Option α) : Option (Option α) :=
  if present then read.map some else some none

/-! ### Codes -/

def decodeView : Nat → Option View
  | 0 => some .live
  | 1 => some .staged
  | _ => none

def decodeFormat : Nat → Option Format
  | 0 => some .fill
  | 1 => some .marker2
  | 2 => some .index4
  | 3 => some .index8
  | 4 => some .direct16
  | _ => none

def decodeCodeEntry : Nat → Option CodeEntry
  | 0 => some .transparent
  | 1 => some .colour1
  | 2 => some .colour2
  | 3 => some .colour3
  | 4 => some .invert
  | _ => none

def decodeUpdateOp : Nat → Option UpdateOp
  | 0 => some .and
  | 1 => some .or
  | 2 => some .xor
  | _ => none

/-! ### Records -/

/-- The code map at a position: three bits for each code, bits 15-12 reserved (11.3). -/
def decodeCodeMap (bytes : List Byte) (i : Nat) : Option CodeMap :=
  let v := field bytes i 2
  if v < 4096 then do
    let e0 ← decodeCodeEntry (v % 8)
    let e1 ← decodeCodeEntry (v / 8 % 8)
    let e2 ← decodeCodeEntry (v / 64 % 8)
    let e3 ← decodeCodeEntry (v / 512 % 8)
    some ⟨e0, e1, e2, e3⟩
  else none

/-- The source at a position: handle, offset, stride (R47, R49). -/
def decodeSource (bytes : List Byte) (i : Nat) : Option Source := do
  let handle ← below 32 (fieldByte bytes i)
  let offset ← within 0 2097151 (field bytes (i + 1) 3)
  let stride ← within 1 4096 (field bytes (i + 4) 2)
  some ⟨handle, offset, stride⟩

/-- The clip rectangle at a position (R47, R51). -/
def decodeClip (bytes : List Byte) (i : Nat) : Option Clip := do
  let x0 ← within 0 4095 (field bytes i 2)
  let y0 ← within 0 4095 (field bytes (i + 2) 2)
  let x1 ← within x0 4095 (field bytes (i + 4) 2)
  let y1 ← within y0 4095 (field bytes (i + 6) 2)
  some ⟨x0, y0, x1, y1⟩

/-- The layer descriptor of 46 bytes at a position, under the form check of Set Layer (R47, R207, 11.3). -/
def decodeDescriptor (bytes : List Byte) (i : Nat) : Option Descriptor := do
  let format ← decodeFormat (fieldByte bytes i)
  let z ← below 64 (fieldByte bytes (i + 1))
  let width ← within 1 1024 (field bytes (i + 2) 2)
  let height ← within 1 1024 (field bytes (i + 4) 2)
  let x ← position (fieldSigned bytes (i + 6))
  let y ← position (fieldSigned bytes (i + 8))
  let ax ← within 0 (width - 1) (field bytes (i + 10) 2)
  let ay ← within 0 (height - 1) (field bytes (i + 12) 2)
  let flags ← within 0 63 (fieldByte bytes (i + 14))
  let source ← announcedBy (flags.testBit 2) (decodeSource bytes (i + 15))
  let paletteBase ← announcedBy (flags.testBit 3) (below 64 (fieldByte bytes (i + 21)))
  let key ← announcedBy (flags.testBit 4) (some (BitVec.ofNat 16 (field bytes (i + 22) 2)))
  let codeMap ← decodeCodeMap bytes (i + 24)
  let clip ← announcedBy (flags.testBit 5) (decodeClip bytes (i + 38))
  some
    { format, z, width, height, x, y, ax, ay, source, paletteBase, key, codeMap,
      fill := fieldColor bytes (i + 26), c1 := fieldColor bytes (i + 29), c2 := fieldColor bytes (i + 32),
      c3 := fieldColor bytes (i + 35), clip, visible := flags.testBit 0, movable := flags.testBit 1 }

/-- The two band bytes at a position: FFh twice is the empty band (11.3). -/
def decodeBand (bytes : List Byte) (i : Nat) : Option (Option Band) :=
  let low := fieldByte bytes i
  let high := fieldByte bytes (i + 1)
  if low = 255 ∧ high = 255 then some none
  else if low ≤ high ∧ high ≤ 63 then some (some ⟨low, high⟩)
  else none

/-- One port's share of a plan at a position, every field in its range (R179). -/
def decodeQuotas (bytes : List Byte) (i : Nat) : Option Quotas := do
  let layers ← within 0 16 (fieldByte bytes i)
  let extents ← within 0 32 (fieldByte bytes (i + 1))
  let rows ← within 0 4096 (field bytes (i + 2) 2)
  let blocks ← within 0 64 (fieldByte bytes (i + 4))
  let windows ← within 0 8 (fieldByte bytes (i + 5))
  let band ← decodeBand bytes (i + 6)
  some ⟨layers, extents, rows, blocks, windows, band⟩

/-- The timing values of a plan record, each in the range of R27. -/
def decodeTiming (bytes : List Byte) : Option Timing := do
  let width ← within 64 1024 (field bytes 32 2)
  let height ← within 64 768 (field bytes 34 2)
  let hblank ← within 32 1023 (field bytes 36 2)
  let vblank ← within 4 255 (fieldByte bytes 38)
  let divider ← within 1 16 (fieldByte bytes 39)
  some ⟨width, height, hblank, vblank, divider⟩

/-- The plan record of a Propose, every field in its range (R179, R180, 11.3). -/
def decodePlan (bytes : List Byte) : Option Plan := do
  let q0 ← decodeQuotas bytes 0
  let q1 ← decodeQuotas bytes 8
  let q2 ← decodeQuotas bytes 16
  let q3 ← decodeQuotas bytes 24
  let timing ← decodeTiming bytes
  let output ← match fieldByte bytes 43 with
    | 0 => some Output.dark
    | 1 => some Output.lit
    | _ => none
  some { quotas := ⟨q0, q1, q2, q3⟩, timing, background := fieldColor bytes 40, output }

/-- The window settings of 13 bytes at a position, each in the range of R76. Whether the rectangle lies inside the
active area is decided against the plan in force (R80). -/
def decodeSettings (bytes : List Byte) (i : Nat) : Option WinSettings := do
  let x ← within 0 1023 (field bytes i 2)
  let y ← within 0 767 (field bytes (i + 2) 2)
  let w ← within 1 1024 (field bytes (i + 4) 2)
  let h ← within 1 768 (field bytes (i + 6) 2)
  let options ← within 0 15 (fieldByte bytes (i + 8))
  let threshold ← within 1 15 (fieldByte bytes (i + 9))
  some
    { x, y, w, h, threshold
      mode := if options.testBit 0 then .continuous else .oneShot
      reference := if options.testBit 1 then none else some (fieldColor bytes (i + 10))
      scope := if options.testBit 2 then .all else .owner
      report := if options.testBit 3 then .faults else .results }

/-- The colours from a position on, three bytes each (R163). -/
def decodeColors (bytes : List Byte) (count i : Nat) : List Color :=
  (List.range count).map fun k => fieldColor bytes (i + 3 * k)

/-! ### Stage edits (11.2) -/

/-- The edit of a Stage request. The kind byte stands first, the slot second; the block for Publish Palette. None
where the kind is not listed, the length belongs to another kind, or a field is out of range (R46, R207). -/
def decodeEdit (bytes : List Byte) : Option Edit :=
  match fieldByte bytes 0, bytes.length with
  | 0x01, 48 => do
    let slot ← below 16 (fieldByte bytes 1)
    let d ← decodeDescriptor bytes 2
    some (.setLayer slot d)
  | 0x02, 6 => do
    let slot ← below 16 (fieldByte bytes 1)
    let x ← position (fieldSigned bytes 2)
    let y ← position (fieldSigned bytes 4)
    some (.move slot x y)
  | 0x03, 2 => (below 16 (fieldByte bytes 1)).map .showSlot
  | 0x04, 2 => (below 16 (fieldByte bytes 1)).map .hideSlot
  | 0x05, 3 => do
    let slot ← below 16 (fieldByte bytes 1)
    let z ← below 64 (fieldByte bytes 2)
    some (.setDepth slot z)
  | 0x06, 9 => do
    let slot ← below 16 (fieldByte bytes 1)
    let source ← optionalBy (fieldByte bytes 2) (decodeSource bytes 3)
    some (.setSource slot source)
  | 0x07, 19 => do
    let slot ← below 16 (fieldByte bytes 1)
    let codeMap ← decodeCodeMap bytes 14
    let key ← optionalBy (fieldByte bytes 16) (some (BitVec.ofNat 16 (field bytes 17 2)))
    some (.setColours slot (fieldColor bytes 2) (fieldColor bytes 5) (fieldColor bytes 8) (fieldColor bytes 11)
      codeMap key)
  | 0x08, 11 => do
    let slot ← below 16 (fieldByte bytes 1)
    let clip ← optionalBy (fieldByte bytes 2) (decodeClip bytes 3)
    some (.setClip slot clip)
  | 0x09, 4 => do
    let slot ← below 16 (fieldByte bytes 1)
    let base ← optionalBy (fieldByte bytes 2) (below 64 (fieldByte bytes 3))
    some (.setPaletteBase slot base)
  | 0x0A, 2 => (below 64 (fieldByte bytes 1)).map .publish
  | 0x0B, 2 => (below 16 (fieldByte bytes 1)).map .retire
  | _, _ => none

/-- The slot an edit names; Publish Palette names none (R52). -/
def Edit.slot? : Edit → Option (Fin 16)
  | .setLayer l _ => some l
  | .move l _ _ => some l
  | .showSlot l => some l
  | .hideSlot l => some l
  | .setDepth l _ => some l
  | .setSource l _ => some l
  | .setColours l _ _ _ _ _ _ => some l
  | .setClip l _ => some l
  | .setPaletteBase l _ => some l
  | .publish _ => none
  | .retire l => some l

/-- The block an edit publishes (R52). -/
def Edit.block? : Edit → Option (Fin 64)
  | .publish b => some b
  | _ => none

end Sys2Proof.Machine
end

