-- ==== Sys2Proof/Machine/Arbiter.lean ====
section
/-! DEFINITION. Row accesses and the store arbiters: how work divides into accesses, which accesses wait at a bank,
and which one a grant decision picks (R126 to R131). -/

namespace Sys2Proof.Machine

/-! ### Dividing work at the row boundaries (R127) -/

/-- The rows that `len` bytes from extent byte `start` on lie in: for each, the global row, the first byte within it
and the number of bytes (R12, R35, R144). -/
def splitBytes (firstRow start len : Nat) : List (Nat × Nat × Nat) :=
  if len = 0 then []
  else
    let last := start + len - 1
    (List.range (last / rowBytes - start / rowBytes + 1)).map fun i =>
      let r := start / rowBytes + i
      let lo := if i = 0 then start % rowBytes else 0
      let hi := if r = last / rowBytes then last % rowBytes else rowBytes - 1
      (firstRow + r, lo, hi + 1 - lo)

/-- The read accesses for a run of extent bytes. -/
def readParts (firstRow start len : Nat) : List Part :=
  (splitBytes firstRow start len).map fun t => { row := t.1, kind := .read t.2.1 t.2.2, status := .waiting }

/-- The write accesses for `data` at extent byte `start`; each part carries its own bytes. -/
def writeParts (firstRow start : Nat) (data : List Byte) : List Part :=
  ((splitBytes firstRow start data.length).foldl
    (fun acc t => (acc.1 ++ [{ row := t.1, kind := .write t.2.1 (acc.2.take t.2.2), status := .waiting }],
      acc.2.drop t.2.2)) (([] : List Part), data)).1

/-- The bytes a completed part handed over. -/
def Part.bytes (t : Part) : List Byte :=
  match t.status with
  | .done l => l
  | _ => []

/-- The part has completed. -/
def Part.finished (t : Part) : Bool :=
  match t.status with
  | .done _ => true
  | _ => false

/-- Every access of the work has completed. -/
def allFinished (l : List Part) : Bool := l.all Part.finished

/-- The bytes of all parts, in order. -/
def partsBytes (l : List Part) : List Byte := l.flatMap Part.bytes

/-- The part waits at this bank. -/
def Part.waitsAt (b : BankId) (t : Part) : Bool := decide (t.status = .waiting) && decide (bankOfRow t.row = b)

/-- The part is in flight at this bank. -/
def Part.grantedAt (b : BankId) (t : Part) : Bool := decide (t.status = .granted) && decide (bankOfRow t.row = b)

/-- The first part that waits at the bank becomes granted. -/
def markGranted (b : BankId) : List Part → List Part
  | [] => []
  | t :: rest => if t.waitsAt b then { t with status := .granted } :: rest else t :: markGranted b rest

/-- The part in flight at the bank has completed with these bytes. -/
def markDone (b : BankId) (bytes : List Byte) : List Part → List Part
  | [] => []
  | t :: rest => if t.grantedAt b then { t with status := .done bytes } :: rest else t :: markDone b bytes rest

/-! ### What waits at a bank (R128) -/

/-- The scan engine's access at the bank: the first one of the line's list still to be made there (R35). -/
def scanWaiting (s : State) (b : BankId) : Option Part :=
  (s.scan.fetch.find? fun f => f.part.waitsAt b).map FetchPart.part

/-- The accesses of the read-ahead fetch. -/
def ReadAhead.parts : ReadAhead → List Part
  | .fetching _ _ _ l => l
  | _ => []

/-- The accesses of the transfer in progress. -/
def jobParts : Option Job → List Part
  | some j => j.parts
  | none => []

/-- The access a transfer unit has waiting at the bank (R144). -/
def transferWaiting (s : State) (p : PortId) (b : BankId) : Option Part :=
  let u := s.transfer.get p
  (jobParts u.job ++ u.buffer.parts).find? (Part.waitsAt b)

/-- The requester's access is in flight at some bank. -/
def inFlightBy (s : State) (r : Requester) : Bool :=
  allBanks.any fun b => match (s.banks.get b).inFlight with
    | some a => decide (a.requester = r)
    | none => false

/-- The row the clear engine of a port clears next: the row at the clear progress of the extent at the head of its
list, once its previous clear write has completed (R105, R106). -/
def clearWaiting (s : State) (p : PortId) : Option Nat :=
  if inFlightBy s (.clear p) then none
  else
    match s.extents.clearLists.get p with
    | [] => none
    | h :: _ =>
      match s.extent h with
      | some e => if e.progress < e.rows then some (e.firstRow + e.progress) else none
      | none => none

/-- The clear write of a port that waits at this bank. -/
def clearWaitingAt (s : State) (p : PortId) (b : BankId) : Option Nat :=
  match clearWaiting s p with
  | some g => if bankOfRow g = b then some g else none
  | none => none

/-! ### Grants (R129, R130) -/

/-- The number of owed rows from which refresh is urgent (R128). -/
def urgentLength : Nat := 4

/-- The ports in the order following the pointer, ending with the port it names (R130). -/
def turnOrder (p : PortId) : List PortId :=
  [nextPort p, nextPort (nextPort p), nextPort (nextPort (nextPort p)), p]

/-- An access begins at the bank. -/
def State.begin (s : State) (b : BankId) (a : Access) : State :=
  s.setBank b { s.banks.get b with inFlight := some a }

/-- The refresh that waits at the bank is granted. -/
def grantRefresh (s : State) (b : BankId) (r : Fin 1024) : State :=
  s.begin b { requester := .refresh, row := globalRowOf b r, kind := .refresh, wanted := true }

/-- The first part of the fetch list that waits at the bank becomes granted. -/
def markFetchGranted (b : BankId) : List FetchPart → List FetchPart
  | [] => []
  | f :: rest =>
    if f.part.waitsAt b then { f with part := { f.part with status := .granted } } :: rest
    else f :: markFetchGranted b rest

/-- The scan engine's access is granted. -/
def grantScan (s : State) (b : BankId) (t : Part) : State :=
  State.begin { s with scan := { s.scan with fetch := markFetchGranted b s.scan.fetch } } b
    { requester := .scan, row := t.row, kind := t.kind, wanted := true }

/-- A port's access is granted in class 4: the pointer names the port, and its mark the kind (R130). -/
def State.takeTurn (s : State) (b : BankId) (p : PortId) (k : TurnKind) : State :=
  let bank := s.banks.get b
  s.setBank b { bank with pointer := p, marks := bank.marks.set p k }

/-- The read-ahead buffer with its waiting access at the bank granted. -/
def ReadAhead.grantAt (b : BankId) : ReadAhead → ReadAhead
  | .fetching h start len l => .fetching h start len (markGranted b l)
  | other => other

/-- The transfer unit with its waiting access at the bank granted: the transfer's own first, else the read-ahead's
(R144). -/
def TransferUnit.grantAt (u : TransferUnit) (b : BankId) : TransferUnit :=
  if (jobParts u.job).any (Part.waitsAt b) then
    { u with job := u.job.map fun j => { j with parts := markGranted b j.parts } }
  else { u with buffer := u.buffer.grantAt b }

/-- A transfer unit's access is granted. -/
def grantTransfer (s : State) (b : BankId) (p : PortId) (t : Part) : State :=
  ((s.setTransfer p ((s.transfer.get p).grantAt b)).takeTurn b p .transfer).begin b
    { requester := .transfer p, row := t.row, kind := t.kind, wanted := true }

/-- A clear engine's access is granted: the whole row with the value 00h (R105). -/
def grantClear (s : State) (b : BankId) (p : PortId) (g : Nat) : State :=
  (s.takeTurn b p .clear).begin b
    { requester := .clear p, row := g, kind := .write 0 (List.replicate rowBytes 0), wanted := true }

/-- The first port in the order with an access waiting at the bank is granted one: the one it has, or of both the
kind other than its alternation mark (R130). -/
def grantPorts (s : State) (b : BankId) : List PortId → State
  | [] => s
  | p :: rest =>
    match transferWaiting s p b, clearWaitingAt s p b with
    | none, none => grantPorts s b rest
    | some t, none => grantTransfer s b p t
    | none, some g => grantClear s b p g
    | some t, some g =>
      match (s.banks.get b).marks.get p with
      | .transfer => grantClear s b p g
      | .clear => grantTransfer s b p t

/-- A grant decision at the bank: nothing while an access is in flight there, else the first class that has an access
waiting (R129). -/
def decideGrant (s : State) (b : BankId) : State :=
  match (s.banks.get b).inFlight with
  | some _ => s
  | none =>
    match (s.refresh.get b).request, scanWaiting s b with
    | some r, none => grantRefresh s b r
    | some r, some t =>
      if urgentLength ≤ (s.refresh.get b).owed.length then grantRefresh s b r else grantScan s b t
    | none, some t => grantScan s b t
    | none, none => grantPorts s b (turnOrder (s.banks.get b).pointer)

/-- The decisions at the idle banks, after all that one event has requested (R129). -/
def arbitrate (s : State) : State := allBanks.foldl decideGrant s

/-! ### Giving up accesses (R131) -/

/-- The result of the requester's access in flight is no longer wanted; the access still completes. -/
def Bank.giveUp (r : Requester) (k : Bank) : Bank :=
  { k with inFlight := k.inFlight.map fun a => if a.requester = r then { a with wanted := false } else a }

/-- The requester gives up its accesses in flight at every bank. -/
def State.giveUp (s : State) (r : Requester) : State :=
  { s with banks := PerBank.tab fun b => (s.banks.get b).giveUp r }

/-- What a step sends is delivered and the idle banks decide. -/
def Act.settleAndArbitrate (a : Act) : State := arbitrate a.settle

end Sys2Proof.Machine
end

