-- ==== Sys2Proof/Machine/Transfer.lean ====
section
/-! DEFINITION. What happens to a transfer unit besides its own requests: emptying of the buffer, state notices,
write notices, read-ahead and the end of a transfer (R140 to R154). -/

namespace Sys2Proof.Machine

/-! ### The buffer (R150 to R153) -/

/-- The handle the buffer names. -/
def ReadAhead.handle? : ReadAhead → Option (Fin 32)
  | .empty => none
  | .fetching h _ _ _ => some h
  | .valid h _ _ => some h

/-- The first extent byte and the length of the buffer's range; nothing for an EMPTY buffer. -/
def ReadAhead.range : ReadAhead → Nat × Nat
  | .empty => (0, 0)
  | .fetching _ start len _ => (start, len)
  | .valid _ start bytes => (start, bytes.length)

/-- The buffer is FETCHING. -/
def ReadAhead.isFetching : ReadAhead → Bool
  | .fetching _ _ _ _ => true
  | _ => false

/-- A Read that waited for the buffer presents its own accesses (R147). -/
def Job.standAlone (firstRow : Nat) (j : Job) : Job :=
  match j.kind with
  | .readBuffered n => { j with kind := .read n, parts := readParts firstRow j.offset n }
  | _ => j

/-- The first row of an extent. -/
def State.firstRowOf (s : State) (h : Fin 32) : Nat := ((s.extent h).map Extent.firstRow).getD 0

/-- The buffer is emptied: a fetch is given up, and a Read that waited for it presents its own accesses (R152,
R147). -/
def emptyBuffer (p : PortId) (s : State) : State :=
  let u := s.transfer.get p
  let s' := if u.buffer.isFetching then s.giveUp (.transfer p) else s
  s'.setTransfer p
    { u with buffer := .empty, job := u.job.map fun j => j.standAlone (s.firstRowOf j.handle) }

/-- The greatest number of bytes fetched ahead (R150). -/
def readAheadBytes : Nat := 64

/-- Read-ahead from the cursor, when the extent is READY and the cursor does not stand at its end (R150). -/
def startReadAhead (p : PortId) (s : State) : State :=
  let u := s.transfer.get p
  match u.cursor with
  | none => s
  | some c =>
    match s.extent c.handle with
    | none => s
    | some e =>
      let r := e.size - c.offset
      if r = 0 ∨ e.state ≠ .ready then s
      else
        let n := min readAheadBytes r
        s.setTransfer p { u with buffer := .fetching c.handle c.offset n (readParts e.firstRow c.offset n) }

/-- The cursor moved on by a byte count (R141). -/
def advanceCursor (p : PortId) (n : Nat) (s : State) : State :=
  let u := s.transfer.get p
  s.setTransfer p { u with cursor := u.cursor.map fun c => { c with offset := c.offset + n } }

/-! ### The end of a transfer -/

/-- The transfer in progress leaves the unit. -/
def dropJob (p : PortId) (s : State) : State :=
  let u := s.transfer.get p
  s.setTransfer p { u with job := none }

/-- The result of a Read with its damage mark (R148), and of an Update on an extent in that state (R149). -/
def damagedIf (d : Bool) : Result := if d then .damaged else .ok

/-- The extent is DAMAGED. -/
def State.extentDamaged (s : State) (h : Fin 32) : Bool :=
  match s.extent h with
  | some e => decide (e.state = .damaged)
  | none => false

/-- A Read has its bytes: the cursor advances, the answer goes out and read-ahead is considered, the buffer emptied
before. A detached transfer advances no cursor and starts no read-ahead (R147, R150, R154). -/
def finishRead (p : PortId) (j : Job) (bytes : List Byte) (s : State) : Act :=
  let s := dropJob p s
  let s := if j.detached then s else startReadAhead p (advanceCursor p bytes.length (emptyBuffer p s))
  (Act.quiet s).send .response (.respond p (damagedIf j.damage) bytes)

/-- The transfer in progress, once its last access has completed (R145, R147, R149). -/
def finishJob (p : PortId) (s : State) : Act :=
  match (s.transfer.get p).job with
  | none => .quiet s
  | some j =>
    match j.kind with
    | .readBuffered _ => .quiet s
    | .read _ => if allFinished j.parts then finishRead p j (partsBytes j.parts) s else .quiet s
    | .write n =>
      if allFinished j.parts then
        let s := dropJob p s
        (Act.quiet (if j.detached then s else advanceCursor p n s)).send .response (.respond p .ok [])
      else .quiet s
    | .update =>
      if allFinished j.parts then
        (Act.quiet (dropJob p s)).send .response
          (.respond p (damagedIf (s.extentDamaged j.handle)) (partsBytes j.parts))
      else .quiet s

/-- A FETCHING buffer whose last access has completed becomes VALID, and a Read that waits for it is served from it
(R147, R151). -/
def finishFetch (p : PortId) (s : State) : Act :=
  let u := s.transfer.get p
  match u.buffer with
  | .fetching h start _ l =>
    if allFinished l then
      let bytes := partsBytes l
      let s := s.setTransfer p { u with buffer := .valid h start bytes }
      match u.job with
      | some j =>
        match j.kind with
        | .readBuffered n => finishRead p j ((bytes.drop (j.offset - start)).take n) s
        | _ => .quiet s
      | none => .quiet s
    else .quiet s
  | _ => .quiet s

/-- A Read is ended before its answer: its accesses are given up and it is answered with this result (R148). -/
def endRead (p : PortId) (result : Result) (s : State) : Act :=
  (Act.quiet (dropJob p (s.giveUp (.transfer p)))).send .response (.respond p result [])

/-- The transfer is a Read. -/
def Job.isRead (j : Job) : Bool :=
  match j.kind with
  | .read _ => true
  | .readBuffered _ => true
  | _ => false

/-! ### State notices (R122, R141, R148, R152) -/

/-- The unit loses the extent, because it is freed or the port's grant on it has become NONE: the cursor becomes
absent, the buffer is emptied, and a Read in progress on it is answered with this result. -/
def loseExtent (h : Fin 32) (result : Result) (p : PortId) (s : State) : Act :=
  let u := s.transfer.get p
  let s := if u.cursor.map Cursor.handle = some h then s.setTransfer p { u with cursor := none } else s
  let s := if u.buffer.handle? = some h then emptyBuffer p s else s
  match (s.transfer.get p).job with
  | some j => if j.isRead && decide (j.handle = h) then endRead p result s else .quiet s
  | none => .quiet s

/-- The extent is freed (R108): every transfer unit is told. -/
def noticeFreed (h : Fin 32) (s : State) : Act :=
  (Act.quiet s).forEach allPorts fun p => loseExtent h .noObject p

/-- The port's grant on the extent has become NONE. -/
def noticeGrantNone (h : Fin 32) (p : PortId) (s : State) : Act := loseExtent h .notGranted p s

/-- The extent has entered DAMAGED: its buffers are emptied and its Reads in progress marked (R148, R152). -/
def noticeDamagedAt (h : Fin 32) (p : PortId) (s : State) : State :=
  let s := if (s.transfer.get p).buffer.handle? = some h then emptyBuffer p s else s
  let u := s.transfer.get p
  s.setTransfer p
    { u with job := u.job.map fun j => if j.isRead && decide (j.handle = h) then { j with damage := true } else j }

/-- Every transfer unit is told that the extent has entered DAMAGED. -/
def noticeDamaged (h : Fin 32) (s : State) : State := allPorts.foldl (fun s p => noticeDamagedAt h p s) s

/-! ### Write notices (R133, R152) -/

/-- The buffer's range shares a byte with bytes `lo` to `hi` of the global row. -/
def bufferMeets (s : State) (u : TransferUnit) (g lo hi : Nat) : Bool :=
  match u.buffer.handle? with
  | none => false
  | some h =>
    match s.extent h with
    | none => false
    | some e =>
      let (start, len) := u.buffer.range
      decide (e.firstRow ≤ g) && decide ((g - e.firstRow) * rowBytes + lo < start + len) &&
        decide (start ≤ (g - e.firstRow) * rowBytes + hi)

/-- One unit takes the write notice for bytes `lo` to `hi` of the row. -/
def takeWriteNotice (g lo hi : Nat) (s : State) (p : PortId) : State :=
  if bufferMeets s (s.transfer.get p) g lo hi then emptyBuffer p s else s

/-- The write notice goes to all four transfer units. -/
def noticeWrite (g lo hi : Nat) (s : State) : State := allPorts.foldl (takeWriteNotice g lo hi) s

/-- The transfer unit at its port's teardown start: the cursor absent, the buffer empty, the transfer in progress
detached (R154). -/
def transferTeardown (p : PortId) (s : State) : State :=
  let s := emptyBuffer p s
  let u := s.transfer.get p
  s.setTransfer p { u with cursor := none, job := u.job.map fun j => { j with detached := true } }

/-- The transfer unit at its port's Join (R141, R152, R154). -/
def transferJoin (p : PortId) (s : State) : State :=
  let s := emptyBuffer p s
  s.setTransfer p { s.transfer.get p with cursor := none }

end Sys2Proof.Machine
end

