-- ==== Sys2Proof/Machine/ExtentOps.lean ====
section
/-! DEFINITION. The extent manager's own operations: usage, first-fit placement, freeing, the end of grants, lost
rows (R99 to R120). -/

namespace Sys2Proof.Machine

/-! ### Usage (R124) -/

/-- The number of extents the port owns, in every state, orphans excluded. -/
def extentsOwned (s : State) (p : PortId) : Nat := howMany fun h => extentOwnedBy p (s.extent h)

/-- The rows of an extent the port owns. -/
def ownedRows (p : PortId) (e : Option Extent) : Nat :=
  match e with
  | some r => if r.owner = some p then r.rows else 0
  | none => 0

/-- The total rows of the extents the port owns. -/
def rowsOwned (s : State) (p : PortId) : Nat :=
  ((List.finRange 32).map fun h => ownedRows p (s.extent h)).sum

/-! ### Free rows (R104, R108) -/

/-- The row belongs to the extent. -/
def Extent.holdsRow (e : Extent) (g : Nat) : Bool := decide (e.firstRow ≤ g) && decide (g < e.firstRow + e.rows)

/-- The rows with a line fetch, transfer access or clear write in flight; a refresh holds no row (R108). -/
def rowsInFlight (s : State) : List Nat :=
  allBanks.flatMap fun b => match (s.banks.get b).inFlight with
    | some a => if a.requester = .refresh then [] else [a.row]
    | none => []

/-- The rows of a Write or Update in progress: held to its last completion when its extent is freed meanwhile (R108,
R154). -/
def rowsBeingWritten (s : State) : List Nat :=
  allPorts.flatMap fun p => match (s.transfer.get p).job with
    | some j => if j.isRead then [] else j.parts.map Part.row
    | none => []

/-- The runs of rows that a new extent must not meet, as first row and row count: the allocated extents, and the rows
held after a free (log 15). -/
def takenRuns (s : State) : List (Nat × Nat) :=
  ((List.finRange 32).filterMap fun h => (s.extent h).map fun e => (e.firstRow, e.rows)) ++
    (rowsInFlight s ++ rowsBeingWritten s).map fun g => (g, 1)

/-- A run of `n` rows from `g` on lies in the store and meets no run taken. -/
def runFree (taken : List (Nat × Nat)) (n g : Nat) : Bool :=
  decide (g + n ≤ storeRows) && taken.all fun r => decide (g + n ≤ r.1) || decide (r.1 + r.2 ≤ g)

/-- The lowest of the numbers. -/
def lowestNat : List Nat → Option Nat
  | [] => none
  | n :: rest =>
    match lowestNat rest with
    | some m => some (min n m)
    | none => some n

/-- The first row of the first-fit run of `n` free rows (R104). The lowest free run begins at row 0 or at the end of
a run that is taken. -/
def firstFit (taken : List (Nat × Nat)) (n : Nat) : Option Nat :=
  lowestNat ((0 :: taken.map fun r => r.1 + r.2).filter (runFree taken n))

/-! ### Freeing (R108) -/

/-- The clear writes of the freed extent lose their purpose: the engine's write in flight completes and is then
forgotten (R106, R131). -/
def giveUpClear (s : State) (h : Fin 32) (p : PortId) : State :=
  if (s.extents.clearLists.get p).head? = some h then s.giveUp (.clear p) else s

/-- The extent leaves every clear list (R106). -/
def leaveClearLists (s : State) (h : Fin 32) : State :=
  { s with extents :=
      { s.extents with clearLists := PerPort.tab fun p => (s.extents.clearLists.get p).filter fun k => decide (k ≠ h) } }

/-- The ports with a GRANTED grant on the extent. -/
def grantedPorts (e : Extent) : List PortId := allPorts.filter fun p => decide (e.grants.get p = .granted)

/-- The extent is freed: GRANT_ENDED to the GRANTED grantees naming the owner, the record discarded, its clearing
stopped, and every transfer unit told (R108). -/
def releaseExtent (h : Fin 32) (s : State) : Act :=
  match s.extent h with
  | none => .quiet s
  | some e =>
    let s := leaveClearLists (allPorts.foldl (fun s p => giveUpClear s h p) s) h
    ((Act.quiet (s.setExtent h none)).sendAll .extents (grantedPorts e) (.grantEnded h e.allocator)).andThen
      (noticeFreed h)

/-- Every port's reference count on the extent is 0. -/
def Extent.unreferenced (e : Extent) : Bool := allPorts.all fun p => decide (e.counts.get p = 0)

/-- An orphan that no port references is freed (R115, R116). -/
def releaseIfUnreferenced (h : Fin 32) (s : State) : Act :=
  match s.extent h with
  | some e => if decide (e.owner = none) && e.unreferenced then releaseExtent h s else .quiet s
  | none => .quiet s

/-! ### Grants -/

/-- A grant state replaced. -/
def setGrant (h : Fin 32) (p : PortId) (v : GrantState) (s : State) : State :=
  match s.extent h with
  | some e => s.setExtent h (some { e with grants := e.grants.set p v })
  | none => s

/-- A Revoke of the grantor on the target's grant: at once NONE while the target draws nothing from the extent, else
WITHDRAWING (R111). -/
def revokeGrant (h : Fin 32) (grantor target : PortId) (s : State) : Act :=
  match s.extent h with
  | none => .quiet s
  | some e =>
    match e.grants.get target with
    | .granted =>
      if e.counts.get target = 0 then
        ((Act.quiet (setGrant h target .none s)).send .extents (.event target (.grantEnded h grantor))).andThen
          (noticeGrantNone h target)
      else
        (Act.quiet (setGrant h target .withdrawing s)).send .extents (.event target (.grantWithdrawn h grantor))
    | .withdrawing => .quiet s
    | .none => .quiet s

/-! ### Orphans (R115) -/

/-- The ports other than this one. -/
def otherPorts (p : PortId) : List PortId := allPorts.filter fun q => decide (q ≠ p)

/-- The owner's departure from one extent: no owner, each grant revoked, the former owner's own entry WITHDRAWING
while its layers draw from it, and the extent freed when no layer does (R115). -/
def orphanExtent (p : PortId) (h : Fin 32) (s : State) : Act :=
  match s.extent h with
  | none => .quiet s
  | some e =>
    if e.owner = some p then
      let own := if e.counts.get p = 0 then GrantState.none else .withdrawing
      let s := s.setExtent h (some { e with owner := none })
      (((Act.quiet s).forEach (otherPorts p) fun q => revokeGrant h p q).change (setGrant h p own)).andThen
        (releaseIfUnreferenced h)
    else .quiet s

/-- The extents of a port at its teardown start, in ascending handle order (R115). -/
def orphanExtents (p : PortId) (s : State) : Act :=
  (Act.quiet s).forEach (List.finRange 32) fun h => orphanExtent p h

/-! ### Lost rows (R118 to R120) -/

/-- The extent that holds the row. -/
def extentOfRow (s : State) (g : Nat) : Option (Fin 32) :=
  lowest fun h => match s.extent h with
    | some e => e.holdsRow g
    | none => false

/-- The ports told of damage: the owner, and each port that draws from the extent, once each (R119). -/
def damageAudience (e : Extent) : List PortId :=
  allPorts.filter fun p => decide (e.owner = some p) || decide (e.counts.get p ≠ 0)

/-- A lost row inside a READY or DAMAGED extent (R119). -/
def damageExtent (h : Fin 32) (e : Extent) (s : State) : Act :=
  let lost := min 255 (e.lost + 1)
  let s := s.setExtent h (some { e with state := .damaged, lost })
  let s := if e.state = .ready then noticeDamaged h s else s
  (Act.quiet s).sendAll .extents (damageAudience e) (.extentDamaged h lost)

/-- A lost row inside a CLEARING extent moves the clear progress back when the row has been cleared (R120). -/
def rewindClear (h : Fin 32) (e : Extent) (g : Nat) (s : State) : State :=
  s.setExtent h (some { e with progress := min e.progress (g - e.firstRow) })

/-- The report of a lost row (R118). -/
def lostRow (g : Nat) (s : State) : Act :=
  match extentOfRow s g with
  | none => .quiet s
  | some h =>
    match s.extent h with
    | none => .quiet s
    | some e => if e.state = .clearing then .quiet (rewindClear h e g s) else damageExtent h e s

/-! ### Clearing (R105, R106) -/

/-- A clear write of the engine of port `p` has completed on row `g`: the clear progress advances past the row, and
after the last row the extent is READY and CLEAR_DONE goes to its owner. A write whose row the progress has been moved
back from advances nothing (R120; log 12). -/
def clearCompleted (p : PortId) (g : Nat) (s : State) : Act :=
  match s.extents.clearLists.get p with
  | [] => .quiet s
  | h :: rest =>
    match s.extent h with
    | none => .quiet s
    | some e =>
      if g = e.firstRow + e.progress then
        if e.progress + 1 < e.rows then .quiet (s.setExtent h (some { e with progress := e.progress + 1 }))
        else
          let s := (s.setExtent h (some { e with progress := e.rows, state := .ready })).setClearList p rest
          (Act.quiet s).sendAll .extents e.owner.toList (.clearDone h)
      else .quiet s

end Sys2Proof.Machine
end

