-- ==== Sys2Proof/Machine/Teardown.lean ====
section
/-! DEFINITION. Teardown of a port's session in every block, lease expiry, the time-out of a vote, and the steps a
frame start leaves due (R73, R97, R175 to R177, R186, R187). -/

namespace Sys2Proof.Machine

/-! ### Sessions and events -/

/-- The ports whose sessions are JOINED. -/
def joinedPorts (s : State) : List PortId := allPorts.filter s.joined

/-- The JOINED ports other than this one. -/
def joinedOthers (s : State) (p : PortId) : List PortId := (otherPorts p).filter s.joined

/-- The ports of a set. -/
def portsOf (v : PerPort Bool) : List PortId := allPorts.filter v.get

/-- The proposal that exists, if any (R183). -/
def PlanState.proposal? : PlanState → Option Proposal
  | .steady => none
  | .voting q => some q
  | .adopting q => some q

/-! ### Each block's part (R175) -/

/-- An OWNED slot of the port becomes RETIRING (R73). -/
def Slot.retireFor (p : PortId) : Slot → Slot
  | .held .owned q d => if q = p then .held .retiring q d else .held .owned q d
  | r => r

/-- The commit engine: the batch discarded, the slots RETIRING (R73). -/
def commitTeardown (p : PortId) (s : State) : State :=
  { s with
    commit := { slots := tabulate fun l => (s.slot l).retireFor p, batches := s.commit.batches.set p emptyBatch } }

/-- The check unit: the port's windows FREE at once (R97). -/
def checkTeardown (p : PortId) (s : State) : State :=
  { s with check :=
      { s.check with windows := tabulate fun w => if windowOwnedBy p (s.window w) then none else s.window w } }

/-- The session record at the teardown start (R175). -/
def sessionTeardown (p : PortId) (cause : TeardownCause) (s : State) : State :=
  s.setSession p { s.session.records.get p with state := .draining, counter := 0, cause := some cause }

/-- A voter's departure ends the proposal, with PLAN_FAILED to every other voter (R187). -/
def voterLeft (p : PortId) (s : State) : Act :=
  match s.session.planState.proposal? with
  | none => .quiet s
  | some q =>
    if q.voters.get p then
      (Act.quiet (s.setPlanState .steady)).sendAll .plan ((portsOf q.voters).filter fun v => decide (v ≠ p))
        (.planFailed .voterLeft p)
    else .quiet s

/-- The teardown start of a port (R175). The palette unit and the grants the port holds wait for the blank start. -/
def teardownStart (p : PortId) (cause : TeardownCause) (s : State) : Act :=
  let s := sessionTeardown p cause s
  let s := transferTeardown p (checkTeardown p (commitTeardown p s))
  (((Act.quiet s).sendAll .session (joinedOthers s p) (.peerLeft p)).andThen (voterLeft p)).andThen
    (orphanExtents p)

/-! ### Lease expiry (R176) -/

/-- The port controller at a lease expiry: accepted requests not begun are discarded, an executing one keeps its
place with its response to be discarded, the outbound queue holds LEASE_EXPIRED alone, and a queued frame partly
clocked out is removed (R176, R205). -/
def PortController.expire (c : PortController) : PortController :=
  { c with
    requests := if c.executing then c.requests.take 1 else []
    discard := c.executing
    outbound := [.event .leaseExpired 1]
    transaction := c.transaction.map fun t => if t.fixed = .head then { t with fixed := .removed } else t }

/-- The lease expiry of a port (R173, R175, R176). -/
def expirePort (p : PortId) (s : State) : State :=
  (teardownStart p .expiry (s.setPort p (s.ports.get p).expire)).settleAndArbitrate

/-- The port's lease expiry is due: its counter has reached 0 at the frame start just taken (R173). -/
def Session.expiryDue (r : Session) : Bool :=
  decide (r.state = .joined) && decide (r.lease ≠ 0) && decide (r.counter = 0)

/-- The port's lease expiry is due. -/
def State.expiryDue (s : State) (p : PortId) : Bool := (s.session.records.get p).expiryDue

/-- The lease expiry of a port, if it is due. -/
def takeExpiry (s : State) (p : PortId) : State := if s.expiryDue p then expirePort p s else s

/-! ### The time-out of a vote (R186) -/

/-- The time-out of the proposal is due. -/
def PlanState.timeoutDue : PlanState → Bool
  | .voting q => decide (q.remaining = 0)
  | _ => false

/-- The lowest-numbered voter not in the accepted set (R186). -/
def firstMissing (q : Proposal) : PortId :=
  ((portsOf q.voters).find? fun p => !q.accepted.get p).getD .h0

/-- The proposal times out: discarded, with PLAN_FAILED to every voter (R186). -/
def timeOutVote (s : State) : State :=
  match s.session.planState with
  | .voting q =>
    ((Act.quiet (s.setPlanState .steady)).sendAll .plan (portsOf q.voters)
      (.planFailed .timeout (firstMissing q))).settle
  | _ => s

/-- The time-out of the proposal, if it is due. -/
def takeTimeout (s : State) : State := if s.session.planState.timeoutDue then timeOutVote s else s

/-! ### Steps left due by a frame start -/

/-- The expiries and the time-out that a frame start has left due, taken before any other event (log 4). What they send
arrives after the UNDERRUN events of that frame start: the model's choice (log 35). -/
def takeDue (s : State) : State := takeTimeout (allPorts.foldl takeExpiry s)

/-- Nothing a frame start leaves due is still to be taken. -/
def State.noneDue (s : State) : Bool :=
  allPorts.all (fun p => !s.expiryDue p) && !s.session.planState.timeoutDue

end Sys2Proof.Machine
end

