-- ==== Sys2Proof/Machine/Serve.lean ====
section
/-! DEFINITION. How a port controller executes the request at the head of its queue (R169, R196, R197, R208). -/

namespace Sys2Proof.Machine

/-- A row of the request catalogue (R208): the code, the permitted lengths of the payload, and for a Stage edit its
kind byte. -/
structure RequestRow where
  code : Byte
  lengths : List Nat
  kind : Option Byte
  deriving DecidableEq, Repr

/-- The lengths from `lo` to `hi`. -/
def lengthsFromTo (lo hi : Nat) : List Nat := (List.range (hi + 1 - lo)).map fun i => lo + i

/-- The code of Stage. -/
def stageCode : Byte := 0x0B

/-- The lengths any edit kind uses (R207, R208). -/
def stageLengths : List Nat := [2, 3, 4, 6, 9, 11, 19, 48]

/-- The request catalogue: each code with its permitted lengths (R208). -/
def catalogue : List (Byte × List Nat) :=
  [(0x01, [0]), (0x02, [2]), (0x03, [0]), (0x04, [1]), (0x05, [44]), (0x06, [3]), (0x08, [0]), (0x09, [1]),
   (0x0A, [1]), (stageCode, stageLengths), (0x0C, [0, 2]), (0x0D, [0]), (0x0E, [5]), (0x10, [13]), (0x11, [14]),
   (0x12, [1]), (0x13, [1]), (0x14, [1]), (0x15, [1]), (0x18, [2]), (0x19, [1]), (0x1A, [2]), (0x1B, [2]),
   (0x1C, [1]), (0x1D, [1]), (0x20, [4]), (0x21, lengthsFromTo 1 64), (0x22, [1]), (0x23, [5]), (0x28, [2]),
   (0x29, [2]), (0x2A, (lengthsFromTo 1 16).map fun n => 2 + 3 * n), (0x2B, [4])]

/-- The code is listed in the catalogue. -/
def codeListed (c : Byte) : Bool := catalogue.any fun e => decide (e.1 = c)

/-- The lengths the catalogue lists for a code. -/
def lengthsOf (c : Byte) : List Nat := ((catalogue.find? fun e => decide (e.1 = c)).map Prod.snd).getD []

/-- The row of a request with its own code. -/
def requestRow (code : Byte) : RequestRow := { code, lengths := lengthsOf code, kind := none }

/-- The row of a Stage edit. -/
def stageRow (kind : Byte) : RequestRow := { code := stageCode, lengths := stageLengths, kind := some kind }

/-- The edit kind is one of the eleven. -/
def kindListed (k : Byte) : Bool := decide (1 ≤ k.toNat) && decide (k.toNat ≤ 11)

/-- The request is one that this row executes. A Stage that carries no listed kind belongs to no edit kind; any of
the eleven rows executes it (log 11). -/
def RequestRow.takes (w : RequestRow) (r : Request) : Bool :=
  decide (r.code = w.code) &&
    match w.kind, r.payload.head? with
    | none, _ => true
    | some _, none => true
    | some k, some b => decide (b = k) || !kindListed b

/-- In which session states a request is served (R169). -/
inductive Service where
  | always | unlessDraining | joinedOnly
  deriving DecidableEq, Repr

/-- The answer the session state gives to a request that is not served; none when it is served (R169). -/
def refusalBySession (v : Service) (state : SessionState) : Option Result :=
  match state with
  | .joined => none
  | .absent => match v with
    | .joinedOnly => some .notJoined
    | _ => none
  | .draining => match v with
    | .always => none
    | _ => some .busy

/-- A request answered at once. -/
def answer (p : PortId) (result : Result) (payload : List Byte) (s : State) : Act :=
  (Act.quiet s).send .response (.respond p result payload)

/-- The request begins to execute: LENGTH for a wrong length, else the session check, else the owning block (R169,
R197). -/
def execute (p : PortId) (w : RequestRow) (v : Service) (r : Request) (body : List Byte → State → Act) (s : State) :
    Act :=
  if w.lengths.contains r.payload.length then
    match refusalBySession v (s.sessionState p) with
    | some result => answer p result [] s
    | none => body r.payload s
  else answer p .length [] s

/-- The request at the head of the port's queue, when none is executing (R196). -/
def PortController.nextRequest (c : PortController) : Option Request :=
  if c.executing then none else c.requests.head?

/-- The state when an event can be taken: RESET_N is high and what a frame start left due has been taken (log 2,
log 4). While RESET_N is low, nothing is taken. -/
def whenRunning (f : State → State) (s : State) : State := if s.resetN then f (takeDue s) else s

/-- One request of a port executes, if it stands at the head of its queue; else the event is not due and nothing
happens (R196; log 2). -/
def serve (p : PortId) (w : RequestRow) (v : Service) (body : List Byte → State → Act) (finish : Act → State)
    (s : State) : State :=
  whenRunning (fun s =>
    match (s.ports.get p).nextRequest with
    | none => s
    | some r => if w.takes r then finish (execute p w v r body s) else s) s

/-- The outcome of a command: always a next state. -/
abbrev Outcome := Host.Outcome State Fault Refusal

end Sys2Proof.Machine
end

