-- ==== Sys2Proof/Machine/Sessions.lean ====
section
/-! DEFINITION. Status, Join, Leave, the lease expiry as an event, and the plan requests (09). -/

namespace Sys2Proof.Machine

/-! ### Usage (R172) -/

/-- The port's OWNED and RETIRING slots. -/
def slotsHeld (s : State) (p : PortId) : Nat := howMany fun l => (s.slot l).heldBy p

/-- The port's OWNED slots. -/
def slotsOwned (s : State) (p : PortId) : Nat := howMany fun l => (s.slot l).ownedBy p

/-- The palette blocks the port owns (R158). -/
def blocksOwned (s : State) (p : PortId) : Nat := howMany fun b => (s.block b).ownedBy p

/-- The port's windows, in every state but FREE (R98). -/
def windowsOwned (s : State) (p : PortId) : Nat := howMany fun w => windowOwnedBy p (s.window w)

/-! ### Status (R172) -/

/-- The session states of the four ports, H0 in bits 7-6. -/
def sessionStatesByte (s : State) : Byte :=
  byteOf (64 * sessionCode (s.sessionState .h0) + 16 * sessionCode (s.sessionState .h1) +
    4 * sessionCode (s.sessionState .h2) + sessionCode (s.sessionState .h3))

/-- The proposal byte: bit 0 voter, bit 1 vote due (11.2). -/
def proposalByte (q : PlanState) (p : PortId) : Byte :=
  match q.proposal? with
  | none => 0
  | some v => byteOf ((v.voters.get p).toNat + 2 * (voteDue q p).toNat)

/-- The payload of a Status response, 24 bytes. -/
def statusPayload (s : State) (p : PortId) : List Byte :=
  let r := s.session.records.get p
  let q := s.quotas p
  let b := s.commit.batches.get p
  [sessionStatesByte s, r.lease, r.counter, encodeView r.view, planStateCode s.session.planState] ++
  encode16 (planDigest s.session.plan).toNat ++ [proposalByte s.session.planState p] ++
  encode16 s.scan.frameCounter.toNat ++ [batchStateCode b.state, byteOf b.edits.length] ++
  [byteOf (slotsHeld s p), byteOf q.layers, byteOf (extentsOwned s p), byteOf q.extents] ++
  encode16 (rowsOwned s p) ++ encode16 q.rows ++
  [byteOf (blocksOwned s p), byteOf q.blocks, byteOf (windowsOwned s p), byteOf q.windows]

/-- Status (R172). -/
def statusBody (p : PortId) (_payload : List Byte) (s : State) : Act := answer p .ok (statusPayload s p) s

/-- STATUS: served in every session state (R169, R172). -/
def execStatus (p : PortId) (s : State) : Outcome :=
  .next (serve p (requestRow 0x01) .always (statusBody p) Act.settle s)

/-! ### Join (R170) -/

/-- The payload of a Join response, 11 bytes. -/
def joinPayload (s : State) (p : PortId) : List Byte :=
  encodeQuotas (s.quotas p) ++ encode16 (planDigest s.session.plan).toNat ++ [planStateCode s.session.planState]

/-- Join (R170). -/
def joinBody (p : PortId) (payload : List Byte) (s : State) : Act :=
  if s.sessionState p = .joined then answer p .field [] s
  else
    match decodeView (fieldByte payload 1) with
    | none => answer p .field [] s
    | some view =>
      let lease := payload.getD 0 0
      let s := transferJoin p
        (s.setSession p { state := .joined, lease, counter := lease, view, cause := none })
      (answer p .ok (joinPayload s p) s).sendAll .session (joinedOthers s p) (.peerJoined p)

/-- JOIN: served in ABSENT and JOINED (R169, R170). -/
def execJoin (p : PortId) (s : State) : Outcome :=
  .next (serve p (requestRow 0x02) .unlessDraining (joinBody p) Act.settle s)

/-! ### Leave (R171) -/

/-- Leave: OK, and the teardown starts with cause LEAVE (R171, R175). -/
def leaveBody (p : PortId) (_payload : List Byte) (s : State) : Act :=
  (answer p .ok [] s).andThen (teardownStart p .leave)

/-- LEAVE (R171). -/
def execLeave (p : PortId) (s : State) : Outcome :=
  .next (serve p (requestRow 0x03) .joinedOnly (leaveBody p) Act.settleAndArbitrate s)

/-! ### Lease expiry and time-out as events -/

/-- LEASE_EXPIRY: the port's expiry, when it is due (R173, R176). -/
def execLeaseExpiry (p : PortId) (s : State) : Outcome := .next (if s.resetN then takeExpiry s p else s)

/-- VOTE_TIMEOUT: the proposal's time-out, when it is due (R186). -/
def execVoteTimeout (s : State) : Outcome := .next (if s.resetN then takeTimeout s else s)

/-! ### Get Plan (R190) -/

/-- The plan record and digest that follow the plan state. -/
def planPayload (s : State) (k : Plan) : List Byte :=
  planStateCode s.session.planState :: (encodePlan k ++ encode16 (planDigest k).toNat)

/-- Get Plan (R190). -/
def getPlanBody (p : PortId) (payload : List Byte) (s : State) : Act :=
  match fieldByte payload 0 with
  | 0 => answer p .ok (planPayload s s.session.plan) s
  | 1 =>
    match s.session.planState.proposal? with
    | none => answer p .noObject [] s
    | some q =>
      answer p .ok
        (planPayload s q.plan ++
          [encodePort q.proposer, encodePortSet q.voters, encodePortSet q.accepted, byteOf q.remaining]) s
  | _ => answer p .field [] s

/-- GET_PLAN: served in ABSENT and JOINED (R169, R190). -/
def execGetPlan (p : PortId) (s : State) : Outcome :=
  .next (serve p (requestRow 0x04) .unlessDraining (getPlanBody p) Act.settle s)

/-! ### Propose (R184) -/

/-- A band's number of depth values; 0 for an empty band (R179). -/
def bandSize : Option Band → Nat
  | some b => b.high - b.low + 1
  | none => 0

/-- The depth value lies in the band. -/
def inBand (z : Nat) : Option Band → Bool
  | some b => decide (b.low ≤ z) && decide (z ≤ b.high)
  | none => false

/-- No depth value lies in both bands. -/
def bandsDisjoint (a b : Option Band) : Bool :=
  match a, b with
  | some i, some j => decide (i.high < j.low) || decide (j.high < i.low)
  | _, _ => true

/-- The quotas of a kind over the four ports. -/
def quotaTotal (k : Plan) (f : Quotas → Nat) : Nat :=
  f k.quotas.h0 + f k.quotas.h1 + f k.quotas.h2 + f k.quotas.h3

/-- The totals, bands and band sizes a plan must keep; its fields are in range by their decoding (R180). -/
def planValid (k : Plan) : Bool :=
  decide (quotaTotal k Quotas.layers ≤ 16) && decide (quotaTotal k Quotas.extents ≤ 32) &&
  decide (quotaTotal k Quotas.rows ≤ 4096) && decide (quotaTotal k Quotas.blocks ≤ 64) &&
  decide (quotaTotal k Quotas.windows ≤ 8) &&
  (allPorts.all fun p => (otherPorts p).all fun q => bandsDisjoint (k.quotas.get p).band (k.quotas.get q).band) &&
  allPorts.all fun p => decide ((k.quotas.get p).layers ≤ bandSize (k.quotas.get p).band)

/-- The frame starts a proposal may wait for its votes (R184). -/
def voteFrames : Nat := 128

/-- The proposal a Propose creates (R184). -/
def newProposal (s : State) (p : PortId) (k : Plan) : Proposal :=
  { plan := k, proposer := p, voters := PerPort.tab s.joined, accepted := PerPort.tab fun q => decide (q = p),
    remaining := voteFrames }

/-- Propose (R184). -/
def proposeBody (p : PortId) (payload : List Byte) (s : State) : Act :=
  match s.session.planState with
  | .voting _ => answer p .busy [] s
  | .adopting _ => answer p .busy [] s
  | .steady =>
    match decodePlan payload with
    | none => answer p .field [] s
    | some k =>
      if planValid k then
        let digest := planDigest k
        let q := newProposal s p k
        let others := joinedOthers s p
        let s := s.setPlanState (if others = [] then .adopting q else .voting q)
        (answer p .ok (encode16 digest.toNat) s).sendAll .plan others (.planProposed p digest)
      else answer p .field [] s

/-- PROPOSE (R184). -/
def execPropose (p : PortId) (s : State) : Outcome :=
  .next (serve p (requestRow 0x05) .joinedOnly (proposeBody p) Act.settle s)

/-! ### Vote (R185) -/

/-- A vote in time, by a voter who has not accepted, on the proposal's digest (R185). -/
def voteCounts (q : PlanState) (p : PortId) (digest : Nat) : Option Proposal :=
  match q with
  | .voting v =>
    if v.voters.get p && !v.accepted.get p && decide (digest = (planDigest v.plan).toNat) then some v else none
  | _ => none

/-- The proposal with the port's accept counted: ADOPTING when every voter has accepted (R185). -/
def countAccept (q : Proposal) (p : PortId) : PlanState :=
  let q := { q with accepted := q.accepted.set p true }
  if q.accepted = q.voters then .adopting q else .voting q

/-- Vote (R185). -/
def voteBody (p : PortId) (payload : List Byte) (s : State) : Act :=
  let decision := fieldByte payload 0
  if 2 ≤ decision then answer p .field [] s
  else
    match voteCounts s.session.planState p (field payload 1 2) with
    | none => answer p .stale [] s
    | some q =>
      if decision = 0 then
        (answer p .ok [] (s.setPlanState .steady)).sendAll .plan (portsOf q.voters) (.planRejected p)
      else answer p .ok [] (s.setPlanState (countAccept q p))

/-- VOTE (R185). -/
def execVote (p : PortId) (s : State) : Outcome :=
  .next (serve p (requestRow 0x06) .joinedOnly (voteBody p) Act.settle s)

end Sys2Proof.Machine
end

