-- ==== Sys2Proof/Machine/Layers.lean ====
section
/-! DEFINITION. Claim Layer, Get Layer, Set View and the projection of a slot through a batch (01, R54). -/

namespace Sys2Proof.Machine

/-! ### Claim Layer (R23, R24) -/

/-- The default descriptor at a depth value (R24). -/
def defaultDescriptor (z : Fin 64) : Descriptor :=
  { format := .fill, z, width := 1, height := 1, x := 0, y := 0, ax := 0, ay := 0, source := none,
    paletteBase := none, key := none,
    codeMap := ⟨.transparent, .transparent, .transparent, .transparent⟩, c1 := 0, c2 := 0, c3 := 0, fill := 0,
    clip := none, visible := false, movable := false }

/-- An OWNED slot of the port holds the depth value. -/
def depthHeld (s : State) (p : PortId) (z : Fin 64) : Bool :=
  (List.finRange 16).any fun l => match s.slot l with
    | .held .owned q d => decide (q = p) && decide (d.z = z)
    | _ => false

/-- The lowest value of the port's band that none of its OWNED slots holds (R24). -/
def freeDepth (s : State) (p : PortId) : Option (Fin 64) :=
  lowest fun z => inBand z.val (s.quotas p).band && !depthHeld s p z

/-- The lowest-numbered FREE slot (R23). -/
def freeSlot (s : State) : Option (Fin 16) := lowest fun l => decide (s.slot l = .free)

/-- Claim Layer (R23). When the quota check passes, a FREE slot and a depth value exist in every state the part can
reach (R23, R24); the answer QUOTA in their absence is never given there. -/
def claimLayerBody (p : PortId) (_payload : List Byte) (s : State) : Act :=
  if (s.quotas p).layers ≤ slotsOwned s p then answer p .quota [] s
  else
    match freeSlot s, freeDepth s p with
    | some l, some z =>
      answer p .ok [byteOf l.val, byteOf z.val] (s.setSlot l (.held .owned p (defaultDescriptor z)))
    | _, _ => answer p .quota [] s

/-- CLAIM_LAYER (R23). -/
def execClaimLayer (p : PortId) (s : State) : Outcome :=
  .next (serve p (requestRow 0x08) .joinedOnly (claimLayerBody p) Act.settle s)

/-! ### Projection (R47 to R54) -/

/-- A projected slot: its descriptor and its retire-pending mark (R54). -/
structure Projection where
  desc : Descriptor
  retire : Bool
  deriving DecidableEq, Repr

/-- One edit that names the slot, taken into the projection: it replaces the fields it carries. Set Layer restates
the whole layer and clears the retire-pending mark, Retire Layer sets it (R47 to R53). -/
def Projection.take (j : Projection) : Edit → Projection
  | .setLayer _ d => ⟨d, false⟩
  | .move _ x y => { j with desc := { j.desc with x, y } }
  | .showSlot _ => { j with desc := { j.desc with visible := true } }
  | .hideSlot _ => { j with desc := { j.desc with visible := false } }
  | .setDepth _ z => { j with desc := { j.desc with z } }
  | .setSource _ source => { j with desc := { j.desc with source } }
  | .setColours _ fill c1 c2 c3 codeMap key => { j with desc := { j.desc with fill, c1, c2, c3, codeMap, key } }
  | .setClip _ clip => { j with desc := { j.desc with clip } }
  | .setPaletteBase _ paletteBase => { j with desc := { j.desc with paletteBase } }
  | .publish _ => j
  | .retire _ => { j with retire := true }

/-- The edits of a batch that name the slot, in batch order. -/
def editsFor (l : Fin 16) (edits : List Edit) : List Edit := edits.filter fun e => decide (e.slot? = some l)

/-- The projection of a slot through a batch, on a base descriptor (R54). -/
def project (l : Fin 16) (base : Descriptor) (edits : List Edit) : Projection :=
  (editsFor l edits).foldl Projection.take ⟨base, false⟩

/-! ### Get Layer (R25) -/

/-- Get Layer answers the projection: the slot is OWNED by the port, its view is STAGED and its batch is not EMPTY
(R25). -/
def answersProjection (s : State) (p : PortId) (state : HeldState) (owner : PortId) : Bool :=
  decide (state = .owned) && decide (owner = p) && decide ((s.session.records.get p).view = .staged) &&
    decide ((s.commit.batches.get p).state ≠ .empty)

/-- The payload of a Get Layer response, 49 bytes; the answer byte has bit 0 for PROJECTED and bit 1 for
retire-pending. -/
def layerPayload (state : HeldState) (owner : PortId) (projected retire : Bool) (d : Descriptor) : List Byte :=
  [heldStateCode state, encodePort owner, byteOf (projected.toNat + 2 * retire.toNat)] ++ encodeDescriptor d

/-- Get Layer (R25). -/
def getLayerBody (p : PortId) (payload : List Byte) (s : State) : Act :=
  match below 16 (fieldByte payload 0) with
  | none => answer p .field [] s
  | some l =>
    match s.slot l with
    | .free => answer p .noObject [] s
    | .held state owner d =>
      if answersProjection s p state owner then
        let j := project l d (s.commit.batches.get p).edits
        answer p .ok (layerPayload state owner true j.retire j.desc) s
      else answer p .ok (layerPayload state owner false false d) s

/-- GET_LAYER (R25). -/
def execGetLayer (p : PortId) (s : State) : Outcome :=
  .next (serve p (requestRow 0x09) .joinedOnly (getLayerBody p) Act.settle s)

/-! ### Set View (R26) -/

/-- Set View (R26). -/
def setViewBody (p : PortId) (payload : List Byte) (s : State) : Act :=
  match decodeView (fieldByte payload 0) with
  | none => answer p .field [] s
  | some view => answer p .ok [] (s.setSession p { s.session.records.get p with view })

/-- SET_VIEW (R26). -/
def execSetView (p : PortId) (s : State) : Outcome :=
  .next (serve p (requestRow 0x0A) .joinedOnly (setViewBody p) Act.settle s)

end Sys2Proof.Machine
end

