-- ==== Sys2Proof/Machine/Stage.lean ====
section
/-! DEFINITION. Staging edits, Close Batch, Abandon Batch and Move Now (03). -/

namespace Sys2Proof.Machine

/-! ### Stage (R46) -/

/-- The most edits a batch holds (R44). -/
def maxEdits : Nat := 32

/-- The edit names a slot that is not OWNED by the port (R46, step 3). -/
def editNotOwner (s : State) (p : PortId) (e : Edit) : Bool :=
  match e.slot? with
  | some l => !(s.slot l).ownedBy p
  | none => false

/-- Stage, with the outcomes in the order of R46. -/
def stageBody (p : PortId) (payload : List Byte) (s : State) : Act :=
  let b := s.commit.batches.get p
  if b.state = .closed then answer p .busy [] s
  else
    match decodeEdit payload with
    | none => answer p .field [] s
    | some e =>
      if editNotOwner s p e then answer p .notOwner [] s
      else if maxEdits ≤ b.edits.length then answer p .full [] s
      else
        answer p .ok [byteOf (b.edits.length + 1)]
          (s.setBatch p { state := .opened, edits := b.edits ++ [e], target := none })

/-- The Stage request of one edit kind executes. -/
def serveStage (kind : Byte) (p : PortId) (s : State) : State :=
  serve p (stageRow kind) .joinedOnly (stageBody p) Act.settle s

/-- SET_LAYER (R47). -/
def execSetLayer (p : PortId) (s : State) : Outcome := .next (serveStage 0x01 p s)

/-- MOVE (R48). -/
def execMove (p : PortId) (s : State) : Outcome := .next (serveStage 0x02 p s)

/-- SHOW (R48). -/
def execShowLayer (p : PortId) (s : State) : Outcome := .next (serveStage 0x03 p s)

/-- HIDE (R48). -/
def execHideLayer (p : PortId) (s : State) : Outcome := .next (serveStage 0x04 p s)

/-- SET_DEPTH (R48). -/
def execSetDepth (p : PortId) (s : State) : Outcome := .next (serveStage 0x05 p s)

/-- SET_SOURCE (R49). -/
def execSetSource (p : PortId) (s : State) : Outcome := .next (serveStage 0x06 p s)

/-- SET_COLOURS (R50). -/
def execSetColours (p : PortId) (s : State) : Outcome := .next (serveStage 0x07 p s)

/-- SET_CLIP (R51). -/
def execSetClip (p : PortId) (s : State) : Outcome := .next (serveStage 0x08 p s)

/-- SET_PALETTE_BASE (R51). -/
def execSetPaletteBase (p : PortId) (s : State) : Outcome := .next (serveStage 0x09 p s)

/-- PUBLISH_PALETTE (R52). -/
def execPublishPalette (p : PortId) (s : State) : Outcome := .next (serveStage 0x0A p s)

/-- RETIRE_LAYER (R53). -/
def execRetireLayer (p : PortId) (s : State) : Outcome := .next (serveStage 0x0B p s)

/-! ### Close Batch and Abandon Batch (R55, R57) -/

/-- The optional target of a Close Batch: present when the request has the field (R55, R197). -/
def closeTarget (payload : List Byte) : Option Half :=
  if payload = [] then none else some (BitVec.ofNat 16 (field payload 0 2))

/-- Close Batch (R55). -/
def closeBatchBody (p : PortId) (payload : List Byte) (s : State) : Act :=
  let b := s.commit.batches.get p
  match b.state with
  | .empty => answer p .field [] s
  | .closed => answer p .busy [] s
  | .opened =>
    answer p .ok [byteOf b.edits.length] (s.setBatch p { b with state := .closed, target := closeTarget payload })

/-- CLOSE_BATCH (R55). -/
def execCloseBatch (p : PortId) (s : State) : Outcome :=
  .next (serve p (requestRow 0x0C) .joinedOnly (closeBatchBody p) Act.settle s)

/-- Abandon Batch (R57). -/
def abandonBatchBody (p : PortId) (_payload : List Byte) (s : State) : Act :=
  let b := s.commit.batches.get p
  if b.state = .empty then answer p .tooLate [] s
  else answer p .ok [byteOf b.edits.length] (s.setBatch p emptyBatch)

/-- ABANDON_BATCH (R57). -/
def execAbandonBatch (p : PortId) (s : State) : Outcome :=
  .next (serve p (requestRow 0x0D) .joinedOnly (abandonBatchBody p) Act.settle s)

/-! ### Move Now (R71, R72, R90, R91) -/

/-- A rectangle of panel pixels: left, top, width, height. -/
structure Rect where
  left : Int
  top : Int
  width : Nat
  height : Nat
  deriving DecidableEq, Repr

/-- The screen rectangle of a layer (R7). -/
def screenRect (d : Descriptor) : Rect := ⟨d.x - d.ax, d.y - d.ay, d.width, d.height⟩

/-- The rectangle of a window (R76). -/
def windowRect (w : WinSettings) : Rect := ⟨w.x, w.y, w.w, w.h⟩

/-- The rectangles share at least one pixel (R90). -/
def Rect.meets (a b : Rect) : Bool :=
  decide (a.left < b.left + b.width) && decide (b.left < a.left + a.width) &&
    decide (a.top < b.top + b.height) && decide (b.top < a.top + a.height)

/-- A taint notice for the frame in progress: the RUNNING windows that meet either rectangle are tainted (R90). -/
def taintActive (before after : Rect) (w : Window) : Window :=
  if w.state = .running ∧ ((windowRect w.settings).meets before || (windowRect w.settings).meets after) then
    { w with taint := true }
  else w

/-- A taint notice for the coming frame: the next-frame taint flag of every window that meets either rectangle
(R91). -/
def taintNext (before after : Rect) (w : Window) : Window :=
  if (windowRect w.settings).meets before || (windowRect w.settings).meets after then { w with nextTaint := true }
  else w

/-- The check unit takes the taint notice of a moved layer: for the frame in progress in the ACTIVE phase, for the
coming frame in the BLANK phase, which it also records (R72, R90, R91). -/
def noticeMove (before after : Rect) (s : State) : State :=
  match s.scan.phase with
  | .active =>
    { s with check := { s.check with windows := tabulate fun w => (s.window w).map (taintActive before after) } }
  | .blank =>
    { s with check := { windows := tabulate fun w => (s.window w).map (taintNext before after), moved := true } }

/-- Move Now, with the outcomes in the order of R71. -/
def moveNowBody (p : PortId) (payload : List Byte) (s : State) : Act :=
  match below 16 (fieldByte payload 0), position (fieldSigned payload 1), position (fieldSigned payload 3) with
  | some l, some x, some y =>
    match s.slot l with
    | .held .owned owner d =>
      if owner ≠ p then answer p .notOwner [] s
      else if !d.movable || !d.visible then answer p .field [] s
      else if x = d.x ∧ y = d.y then answer p .ok [] s
      else
        let d' := { d with x, y }
        answer p .ok [] (noticeMove (screenRect d) (screenRect d') (s.setSlot l (.held .owned owner d')))
    | _ => answer p .notOwner [] s
  | _, _, _ => answer p .field [] s

/-- MOVE_NOW (R71). -/
def execMoveNow (p : PortId) (s : State) : Outcome :=
  .next (serve p (requestRow 0x0E) .joinedOnly (moveNowBody p) Act.settle s)

end Sys2Proof.Machine
end

