-- ==== Sys2Proof/Machine/Compose.lean ====
section
/-! DEFINITION. Geometry of a layer on a line, pixel decoding and composition (R7, R8, R12 to R21, R210). -/

namespace Sys2Proof.Machine

/-! ### Geometry (R7, R8) -/

/-- Bits per pixel of a source format; FILL has none (R12). -/
def bitsPerPixel : Format → Nat
  | .fill => 0
  | .marker2 => 2
  | .index4 => 4
  | .index8 => 8
  | .direct16 => 16

/-- The line bytes of a layer (R12). -/
def lineBytes (d : Descriptor) : Nat := (d.width * bitsPerPixel d.format + 7) / 8

/-- The clip's panel lines include the line; a layer without a clip is not limited (R8). -/
def clipHasLine (d : Descriptor) (line : Nat) : Bool :=
  match d.clip with
  | some c => decide (c.y0 ≤ line) && decide (line ≤ c.y1)
  | none => true

/-- The lowest panel column of the drawn portion: not left of the panel, of the screen rectangle or of the clip
(R8). -/
def firstColumn (d : Descriptor) : Nat :=
  max (d.x - d.ax).toNat (d.clip.elim 0 Clip.x0)

/-- One past the highest panel column of the drawn portion: inside the active width, the screen rectangle and the
clip (R8). -/
def endColumn (d : Descriptor) (width : Nat) : Nat :=
  min (min width (d.x - d.ax + d.width).toNat) (d.clip.elim width fun c => c.x1 + 1)

/-- Where the layer lies on an active line of a panel of this width: the line of its screen rectangle and clip, and
its drawn columns; none when its drawn portion does not meet the line (R7, R8, R20). -/
def layerSpan (d : Descriptor) (width line : Nat) : Option Span :=
  let top := d.y - d.ay
  if top ≤ (line : Int) ∧ (line : Int) < top + d.height ∧ clipHasLine d line = true ∧
      firstColumn d < endColumn d width then
    some { row := ((line : Int) - top).toNat, left := d.x - d.ax, first := firstColumn d,
           last := endColumn d width - 1 }
  else none

/-- The layer column at a panel column of the span (R7). -/
def Span.column (k : Span) (px : Nat) : Nat := ((px : Int) - k.left).toNat

/-! ### Pixels (R210) -/

/-- The pixel value of layer column `c`, from bytes of which the first is line byte `base` (R12, R210). -/
def pixelValue (f : Format) (bytes : List Byte) (base c : Nat) : Nat :=
  let at_ := fun i => (bytes.getD (i - base) 0).toNat
  match f with
  | .fill => 0
  | .marker2 => at_ (c / 4) / 2 ^ (6 - 2 * (c % 4)) % 4
  | .index4 => if c % 2 = 0 then at_ (c / 2) / 16 else at_ (c / 2) % 16
  | .index8 => at_ c
  | .direct16 => 256 * at_ (2 * c) + at_ (2 * c + 1)

/-- A DIRECT16 value expanded to 24 bits (R17). -/
def expand565 (v : Nat) : Color :=
  let r5 := v / 2048 % 32
  let g6 := v / 32 % 64
  let b5 := v % 32
  BitVec.ofNat 24 ((r5 * 8 + r5 / 4) * 65536 + (g6 * 4 + g6 / 16) * 256 + (b5 * 8 + b5 / 4))

/-! ### Yields (R13 to R21) -/

/-- What a layer yields at a pixel (01, section 1.5). -/
inductive Yield where
  | transparent
  | solid (c : Color)
  | invert
  deriving DecidableEq, Repr

/-- The yield applied to the colour beneath (R19). -/
def Yield.over (y : Yield) (beneath : Color) : Color :=
  match y with
  | .transparent => beneath
  | .solid c => c
  | .invert => beneath ^^^ 0xFFFFFF#24

/-- The code map's entry for a code (R14). -/
def CodeMap.entry (m : CodeMap) : Nat → CodeEntry
  | 0 => m.code0
  | 1 => m.code1
  | 2 => m.code2
  | _ => m.code3

/-- Live entry `e` of the whole palette: entry e mod 16 of block P(e div 16) (R157). Indexes past the palette wrap;
no live descriptor reaches them (R6). -/
def paletteEntry (palette : Vector PaletteBlock 64) (e : Nat) : Color :=
  palette[Fin.ofNat 64 (e / 16)].live[Fin.ofNat 16 e]

/-- The key is present and equals the pixel value (R15 to R17). -/
def keyEquals (d : Descriptor) (v : Nat) : Bool :=
  match d.key with
  | some k => decide (k.toNat = v)
  | none => false

/-- The yield of a layer for a pixel value read from its source (R13 to R17). -/
def formatYield (palette : Vector PaletteBlock 64) (d : Descriptor) (v : Nat) : Yield :=
  match d.format with
  | .fill => .solid d.fill
  | .marker2 =>
    match d.codeMap.entry v with
    | .transparent => .transparent
    | .colour1 => .solid d.c1
    | .colour2 => .solid d.c2
    | .colour3 => .solid d.c3
    | .invert => .invert
  | .index4 =>
    if keyEquals d v then .transparent
    else .solid (paletteEntry palette (d.paletteBase.elim 0 Fin.val * 16 + v))
  | .index8 =>
    if keyEquals d v then .transparent
    else .solid (paletteEntry palette (d.paletteBase.elim 0 Fin.val * 16 + v))
  | .direct16 => if keyEquals d v then .transparent else .solid (expand565 v)

/-! ### Composition (R19) -/

/-- A layer as it is drawn on one line: its record, its drawn columns, whether it is in fallback, and the bytes
fetched for it (R21, R38). -/
structure DrawnLayer where
  desc : Descriptor
  span : Span
  fallback : Bool
  bytes : List Byte
  deriving DecidableEq, Repr

/-- The first line byte that holds a bit of the first drawn column (R35). -/
def firstLineByte (d : Descriptor) (k : Span) : Nat := k.column k.first * bitsPerPixel d.format / 8

/-- The yield of the layer at a panel column: nothing outside its drawn columns, its fill in fallback, else its
format's (R8, R21). -/
def DrawnLayer.yieldAt (palette : Vector PaletteBlock 64) (y : DrawnLayer) (px : Nat) : Yield :=
  if px < y.span.first ∨ y.span.last < px then .transparent
  else if y.fallback then .solid y.desc.fill
  else
    formatYield palette y.desc
      (pixelValue y.desc.format y.bytes (firstLineByte y.desc y.span) (y.span.column px))

/-- The layer put into a list in its place by ascending z. -/
def insertByDepth (y : DrawnLayer) : List DrawnLayer → List DrawnLayer
  | [] => [y]
  | a :: rest => if y.desc.z < a.desc.z then y :: a :: rest else a :: insertByDepth y rest

/-- The layers in ascending z (R11). -/
def byDepth (l : List DrawnLayer) : List DrawnLayer := l.foldl (fun acc y => insertByDepth y acc) []

/-- The composed pixel at a panel column: the background with every layer's yield applied in ascending z (R19). -/
def composePixel (palette : Vector PaletteBlock 64) (background : Color) (layers : List DrawnLayer) (px : Nat) :
    Color :=
  layers.foldl (fun beneath y => (y.yieldAt palette px).over beneath) background

/-- The composed pixels of a line (R19). -/
def composeLine (palette : Vector PaletteBlock 64) (background : Color) (layers : List DrawnLayer) (width : Nat) :
    List Color :=
  (List.range width).map (composePixel palette background (byDepth layers))

end Sys2Proof.Machine
end

