-- ==== Sys2Proof/Machine/Palette.lean ====
section
/-! DEFINITION. The palette requests and the palette unit's changes at a blank start (08). -/

namespace Sys2Proof.Machine

/-! ### Claim Palette (R160) -/

/-- The blocks from `first` on, `count` of them, are all free. -/
def blocksFree (s : State) (first count : Nat) : Bool :=
  (List.range count).all fun i => match below 64 (first + i) with
    | some b => decide ((s.block b).owner = none)
    | none => false

/-- The first block of the lowest run of `count` free blocks that begins at a multiple of the alignment and ends at
or before P63 (R160). -/
def freeRun (s : State) (count alignment : Nat) : Option (Fin 64) :=
  lowest fun b => decide (b.val % alignment = 0) && blocksFree s b.val count

/-- The block lies in the range of `count` blocks from `first`. -/
def inRun (first count : Nat) (b : Fin 64) : Bool := decide (first ≤ b.val) && decide (b.val < first + count)

/-- The blocks of a run change owner to the port; their entries and flags stay (R160). -/
def claimRun (p : PortId) (first count : Nat) (s : State) : State :=
  { s with palette := tabulate fun b =>
      if inRun first count b then { s.block b with owner := some p } else s.block b }

/-- The alignment of a Claim Palette: 1 or 16 (R160). -/
def decodeAlignment : Nat → Option Nat
  | 1 => some 1
  | 16 => some 16
  | _ => none

/-- Claim Palette (R160). -/
def claimPaletteBody (p : PortId) (payload : List Byte) (s : State) : Act :=
  match within 1 64 (fieldByte payload 0), decodeAlignment (fieldByte payload 1) with
  | some count, some alignment =>
    if (s.quotas p).blocks < blocksOwned s p + count then answer p .quota [] s
    else
      match freeRun s count alignment with
      | none => answer p .noSpace [] s
      | some b => answer p .ok [byteOf b.val] (claimRun p b.val count s)
  | _, _ => answer p .field [] s

/-- CLAIM_PALETTE (R160). -/
def execClaimPalette (p : PortId) (s : State) : Outcome :=
  .next (serve p (requestRow 0x28) .joinedOnly (claimPaletteBody p) Act.settle s)

/-! ### Release Palette (R161) -/

/-- The descriptor uses block P(k) (R161). -/
def usesBlock (d : Descriptor) (k : Nat) : Bool :=
  match d.format, d.paletteBase with
  | .index4, some b => decide (b.val = k)
  | .index8, some b => decide (b.val ≤ k) && decide (k ≤ b.val + 15)
  | _, _ => false

/-- An OWNED slot of the port uses a block of the range in its live descriptor (R161). -/
def runUsed (s : State) (p : PortId) (first count : Nat) : Bool :=
  (List.finRange 16).any fun l => match s.slot l with
    | .held .owned q d => decide (q = p) && (List.range count).any fun i => usesBlock d (first + i)
    | _ => false

/-- A block released: free at once, its shadow cleared, its live entries to be cleared at the next blank start
(R161). -/
def PaletteBlock.release (b : PaletteBlock) : PaletteBlock :=
  { b with owner := none, shadow := Vector.replicate 16 0, dirty := false, clearPending := true }

/-- The blocks of a run released. -/
def releaseRun (first count : Nat) (s : State) : State :=
  { s with palette := tabulate fun b => if inRun first count b then (s.block b).release else s.block b }

/-- Every block of the run is owned by the port. -/
def runOwned (s : State) (p : PortId) (first count : Nat) : Bool :=
  (List.finRange 64).all fun b => !inRun first count b || (s.block b).ownedBy p

/-- Release Palette (R159, R161). -/
def releasePaletteBody (p : PortId) (payload : List Byte) (s : State) : Act :=
  match within 0 63 (fieldByte payload 0), within 1 64 (fieldByte payload 1) with
  | some first, some count =>
    if 64 < first + count then answer p .field [] s
    else if !runOwned s p first count then answer p .notOwner [] s
    else if runUsed s p first count then answer p .inUse [] s
    else answer p .ok [] (releaseRun first count s)
  | _, _ => answer p .field [] s

/-- RELEASE_PALETTE (R161). -/
def execReleasePalette (p : PortId) (s : State) : Outcome :=
  .next (serve p (requestRow 0x29) .joinedOnly (releasePaletteBody p) Act.settle s)

/-! ### Palette Write (R163) -/

/-- The entries with the colours written from `first` on, in order. -/
def writeEntries (v : Vector Color 16) (first : Nat) (colors : List Color) : Vector Color 16 :=
  tabulate fun i =>
    if first ≤ i.val then (colors[i.val - first]?).getD v[i] else v[i]

/-- Palette Write (R159, R163). -/
def paletteWriteBody (p : PortId) (payload : List Byte) (s : State) : Act :=
  let count := (payload.length - 2) / 3
  match below 64 (fieldByte payload 0), within 0 15 (fieldByte payload 1) with
  | some b, some first =>
    if 16 < first + count then answer p .field [] s
    else if !(s.block b).ownedBy p then answer p .notOwner [] s
    else
      let k := s.block b
      answer p .ok []
        (s.setBlock b { k with shadow := writeEntries k.shadow first (decodeColors payload count 2), dirty := true })
  | _, _ => answer p .field [] s

/-- PALETTE_WRITE (R163). -/
def execPaletteWrite (p : PortId) (s : State) : Outcome :=
  .next (serve p (requestRow 0x2A) .joinedOnly (paletteWriteBody p) Act.settle s)

/-! ### Palette Read (R164) -/

/-- The entries `first` to `first` + `count` − 1 of a copy, ascending. -/
def readEntries (v : Vector Color 16) (first count : Nat) : List Byte :=
  ((v.toList.drop first).take count).flatMap encodeColor

/-- The payload of a Palette Read response. The spec lists the dirty byte without a code; 00h for clear and 01h for set
are the model's choice (log 34). -/
def blockPayload (k : PaletteBlock) (shadow : Bool) (first count : Nat) : List Byte :=
  [encodeOwner k.owner, byteOf k.dirty.toNat] ++ readEntries (if shadow then k.shadow else k.live) first count

/-- Which copy a Palette Read names: true for SHADOW. -/
def decodeCopy : Nat → Option Bool
  | 0 => some false
  | 1 => some true
  | _ => none

/-- Palette Read (R159, R164). -/
def paletteReadBody (p : PortId) (payload : List Byte) (s : State) : Act :=
  match below 64 (fieldByte payload 0), decodeCopy (fieldByte payload 1), within 0 15 (fieldByte payload 2),
      within 1 16 (fieldByte payload 3) with
  | some b, some shadow, some first, some count =>
    if 16 < first + count then answer p .field [] s
    else if shadow && !(s.block b).ownedBy p then answer p .notOwner [] s
    else answer p .ok (blockPayload (s.block b) shadow first count) s
  | _, _, _, _ => answer p .field [] s

/-- PALETTE_READ (R164). -/
def execPaletteRead (p : PortId) (s : State) : Outcome :=
  .next (serve p (requestRow 0x2B) .joinedOnly (paletteReadBody p) Act.settle s)

/-! ### At a blank start (R162, R165, R166) -/

/-- A pending clear of the live entries is carried out (R162). -/
def PaletteBlock.carryOutClear (b : PaletteBlock) : PaletteBlock :=
  if b.clearPending then { b with live := Vector.replicate 16 0, clearPending := false } else b

/-- The block is published: its shadow entries become its live entries (R165). -/
def PaletteBlock.publish (b : PaletteBlock) : PaletteBlock := { b with live := b.shadow, dirty := false }

/-- The palette unit at a blank start: pending clears, then the published blocks, so that a block both cleared and
published takes its shadow entries (R162); then the blocks of ports whose teardown ends are freed with both copies
cleared (R166). -/
def paletteBlank (published : Fin 64 → Bool) (ended : PortId → Bool) (s : State) : State :=
  { s with palette := tabulate fun i =>
      let b := (s.block i).carryOutClear
      let b := if published i then b.publish else b
      match b.owner with
      | some p => if ended p then clearedBlock else b
      | none => b }

end Sys2Proof.Machine
end

