-- ==== Sys2Proof/Machine/Windows.lean ====
section
/-! DEFINITION. The six window requests (R79 to R85). -/

namespace Sys2Proof.Machine

/-- The rectangle lies wholly inside the active area (R76). -/
def insideActive (t : Timing) (w : WinSettings) : Bool :=
  decide (w.x + w.w ≤ t.width) && decide (w.y + w.h ≤ t.height)

/-- The window settings at a position of the payload, in range and inside the active area of the plan in force
(R80, step 1). -/
def settingsAt (s : State) (payload : List Byte) (i : Nat) : Option WinSettings :=
  match decodeSettings payload i with
  | some w => if insideActive s.session.plan.timing w then some w else none
  | none => none

/-- A move has been recorded for the coming frame in this BLANK phase (R91). -/
def moveRecorded (s : State) : Bool := s.check.moved && decide (s.scan.phase = .blank)

/-- The record that Define Window gives (R76, R80, R91). -/
def newWindow (s : State) (p : PortId) (w : WinSettings) : Window :=
  { state := .idle, owner := p, settings := w, expected := w.reference, register := signatureStart,
    lastSignature := none, lastResult := .none, consecutive := 0, total := 0, checked := 0, taint := false,
    nextTaint := moveRecorded s }

/-- Define Window (R80). When the quota check passes, a FREE window exists in every state the part can reach; the
answer QUOTA in its absence is never given there. -/
def defineWindowBody (p : PortId) (payload : List Byte) (s : State) : Act :=
  match settingsAt s payload 0 with
  | none => answer p .field [] s
  | some w =>
    if (s.quotas p).windows ≤ windowsOwned s p then answer p .quota [] s
    else
      match lowest fun n => (s.window n).isNone with
      | none => answer p .quota [] s
      | some n => answer p .ok [byteOf n.val] (s.setWindow n (some (newWindow s p w)))

/-- DEFINE_WINDOW (R80). -/
def execDefineWindow (p : PortId) (s : State) : Outcome :=
  .next (serve p (requestRow 0x10) .joinedOnly (defineWindowBody p) Act.settle s)

/-- The refusals common to the requests that name a window, then the request's own rule (R79). `ownerOnly` is step
4. -/
def onWindow (p : PortId) (ownerOnly : Bool) (payload : List Byte) (s : State) (body : Fin 8 → Window → Act) : Act :=
  match below 8 (fieldByte payload 0) with
  | none => answer p .field [] s
  | some n =>
    match s.window n with
    | none => answer p .noObject [] s
    | some w => if ownerOnly && decide (w.owner ≠ p) then answer p .notOwner [] s else body n w

/-- The window is ARMED or RUNNING. -/
def Window.taking (w : Window) : Bool := decide (w.state = .armed) || decide (w.state = .running)

/-- Change Window (R81, R91). -/
def changeWindowBody (p : PortId) (payload : List Byte) (s : State) : Act :=
  onWindow p true payload s fun n w =>
    if w.taking then answer p .busy [] s
    else
      match settingsAt s payload 1 with
      | none => answer p .field [] s
      | some settings =>
        answer p .ok []
          (s.setWindow n (some { w with settings, expected := settings.reference,
                                        nextTaint := w.nextTaint || moveRecorded s }))

/-- CHANGE_WINDOW (R81). -/
def execChangeWindow (p : PortId) (s : State) : Outcome :=
  .next (serve p (requestRow 0x11) .joinedOnly (changeWindowBody p) Act.settle s)

/-- Arm (R82). -/
def armBody (p : PortId) (payload : List Byte) (s : State) : Act :=
  onWindow p true payload s fun n w =>
    if w.taking then answer p .busy [] s
    else answer p .ok [] (s.setWindow n (some { w with state := .armed, consecutive := 0 }))

/-- ARM (R82). -/
def execArm (p : PortId) (s : State) : Outcome :=
  .next (serve p (requestRow 0x12) .joinedOnly (armBody p) Act.settle s)

/-- Disarm; the discarded register stands at its start value (R83; log 32). -/
def disarmBody (p : PortId) (payload : List Byte) (s : State) : Act :=
  onWindow p true payload s fun n w =>
    if w.taking then
      answer p .ok []
        (s.setWindow n (some { w with state := .idle, register := signatureStart, taint := false }))
    else answer p .ok [] s

/-- DISARM (R83). -/
def execDisarm (p : PortId) (s : State) : Outcome :=
  .next (serve p (requestRow 0x13) .joinedOnly (disarmBody p) Act.settle s)

/-- Free Window (R84). -/
def freeWindowBody (p : PortId) (payload : List Byte) (s : State) : Act :=
  onWindow p true payload s fun n _ => answer p .ok [] (s.setWindow n none)

/-- FREE_WINDOW (R84). -/
def execFreeWindow (p : PortId) (s : State) : Outcome :=
  .next (serve p (requestRow 0x14) .joinedOnly (freeWindowBody p) Act.settle s)

/-- Get Window, of any owner (R85). -/
def getWindowBody (p : PortId) (payload : List Byte) (s : State) : Act :=
  onWindow p false payload s fun _ w => answer p .ok (encodeWindow w) s

/-- GET_WINDOW (R85). -/
def execGetWindow (p : PortId) (s : State) : Outcome :=
  .next (serve p (requestRow 0x15) .joinedOnly (getWindowBody p) Act.settle s)

end Sys2Proof.Machine
end

