-- ==== Sys2Proof/Machine/Scan.lean ====
section
/-! DEFINITION. The scan engine: line records and fetches, line starts, the frame start and the fetch for line 0, with
what the check unit does at them (02, R86 to R92). -/

namespace Sys2Proof.Machine

/-! ### Line records and the fetch list (R34, R35) -/

/-- The line record of a slot for a line of a panel of this width (R20, R34). -/
def lineRecord (width line : Nat) (r : Slot) : Option LineRecord :=
  match r with
  | .free => none
  | .held _ _ d => some { live := d, span := if d.visible then layerSpan d width line else none }

/-- The row accesses of a layer's fetch: the bytes from the first to the last that holds a bit of a drawn column,
divided at the rows of the extent (R35). -/
def layerFetch (s : State) (d : Descriptor) (k : Span) : List Part :=
  match d.source with
  | none => []
  | some o =>
    match s.extent o.handle with
    | none => []
    | some e =>
      let bpp := bitsPerPixel d.format
      let first := k.column k.first * bpp / 8
      let past := ((k.column k.last + 1) * bpp + 7) / 8
      readParts e.firstRow (o.offset + k.row * o.stride + first) (past - first)

/-- The slots put in ascending z of their records (R35). -/
def insertSlot (recs : Vector (Option LineRecord) 16) (l : Fin 16) : List (Fin 16) → List (Fin 16)
  | [] => [l]
  | a :: rest =>
    let z := fun i : Fin 16 => (recs[i].map fun r => r.live.z.val).getD 0
    if z l < z a then l :: a :: rest else a :: insertSlot recs l rest

/-- The slots whose fetch is drawn up for the line: drawn, of a source format and, except for line 0, without a
frame fallback mark; in ascending z (R35, R36). -/
def fetchSlots (recs : Vector (Option LineRecord) 16) (marks : Vector Bool 16) : List (Fin 16) :=
  ((List.finRange 16).filter fun l =>
    match recs[l] with
    | some r => r.span.isSome && decide (r.live.format ≠ .fill) && !marks[l]
    | none => false).foldl (fun acc l => insertSlot recs l acc) []

/-- The fetch list of a line: layers in ascending z, each layer's accesses in ascending byte order (R35). -/
def fetchList (s : State) (recs : Vector (Option LineRecord) 16) (marks : Vector Bool 16) : List FetchPart :=
  (fetchSlots recs marks).flatMap fun l =>
    match recs[l] with
    | some r =>
      match r.span with
      | some k => (layerFetch s r.live k).map fun t => { slot := l, part := t }
      | none => []
    | none => []

/-- The fetch point of a line of a panel of this width: line records taken from the layer table, and the fetch drawn
up (R34, R35). -/
def fetchPoint (width line : Nat) (marks : Vector Bool 16) (s : State) : State :=
  let recs : Vector (Option LineRecord) 16 := tabulate fun l => lineRecord width line (s.slot l)
  { s with scan := { s.scan with records := recs, fetch := fetchList s recs marks } }

/-! ### Fetches that are given up (R36, R39) -/

/-- The slot's fetch for the line is incomplete. -/
def fetchIncomplete (fetch : List FetchPart) (l : Fin 16) : Bool :=
  fetch.any fun f => decide (f.slot = l) && !f.part.finished

/-- The bytes of the slot's completed fetch. -/
def fetchedBytes (fetch : List FetchPart) (l : Fin 16) : List Byte :=
  partsBytes ((fetch.filter fun f => decide (f.slot = l)).map FetchPart.part)

/-- The fetch of a part is in flight for one of the slots. -/
def inFlightFor (fetch : List FetchPart) (q : Fin 16 → Bool) (b : BankId) : Bool :=
  fetch.any fun f => q f.slot && f.part.grantedAt b

/-- The fetches of some slots are given up: accesses without a grant are withdrawn, those in flight complete with
their bytes discarded (R36, R39). -/
def dropFetch (q : Fin 16 → Bool) (s : State) : State :=
  { s with
    banks := PerBank.tab fun b =>
      if inFlightFor s.scan.fetch q b then (s.banks.get b).giveUp .scan else s.banks.get b
    scan := { s.scan with fetch := s.scan.fetch.filter fun f => !q f.slot } }

/-! ### Underruns (R39 to R41, R92) -/

/-- The port that owns the slot. -/
def slotOwner (s : State) (l : Fin 16) : Option PortId :=
  match s.slot l with
  | .held _ p _ => some p
  | .free => none

/-- The underrun notice for a line and panel columns taints the RUNNING windows it meets (R92). -/
def taintUnderrun (line : Nat) (k : Span) (w : Window) : Window :=
  if w.state = .running ∧ w.settings.y ≤ line ∧ line < w.settings.y + w.settings.h ∧
      w.settings.x ≤ k.last ∧ k.first < w.settings.x + w.settings.w then
    { w with taint := true }
  else w

/-- The check unit takes the underrun notice (R41, R92). -/
def noticeUnderrun (line : Nat) (k : Span) (s : State) : State :=
  { s with check := { s.check with windows := tabulate fun w => (s.window w).map (taintUnderrun line k) } }

/-- The underrun notice of a slot, for the columns its line record shows drawn (R41). -/
def noticeSlot (line : Nat) (l : Fin 16) (s : State) : State :=
  match s.scan.records[l].bind LineRecord.span with
  | some k => noticeUnderrun line k s
  | none => s

/-- One slot with an incomplete fetch: UNDERRUN to the owner for the first of the frame, and the notice for every
line (R40, R41). -/
def underrunSlot (line : Nat) (l : Fin 16) (s : State) : Act :=
  let told := s.scan.underruns[l]
  let s := noticeSlot line l s
  let s := { s with scan := { s.scan with underruns := s.scan.underruns.set l.val true l.isLt } }
  if told then .quiet s
  else (Act.quiet s).sendAll .scan (slotOwner s l).toList (.underrun l s.scan.frameCounter)

/-- The slots whose fetch is incomplete at the line start, each once, in ascending slot number (R39; log 6). -/
def underrunSlots (s : State) : List (Fin 16) := (List.finRange 16).filter fun l => fetchIncomplete s.scan.fetch l

/-! ### Composing the line (R38, R87) -/

/-- The layers drawn on the line, from its records and its completed fetches (R38). -/
def drawnLayers (s : State) (failed : Fin 16 → Bool) : List DrawnLayer :=
  (List.finRange 16).filterMap fun l =>
    match s.scan.records[l] with
    | some r => r.span.map fun k =>
        { desc := r.live, span := k, fallback := s.scan.marks[l] || failed l,
          bytes := fetchedBytes s.scan.fetch l }
    | none => none

/-- A RUNNING window whose rows include the line is fed the pixels of its columns (R87). -/
def feedWindow (line : Nat) (pixels : List Color) (w : Window) : Window :=
  if w.state = .running ∧ w.settings.y ≤ line ∧ line < w.settings.y + w.settings.h then
    { w with register := ((pixels.drop w.settings.x).take w.settings.w).foldl signPixel w.register }
  else w

/-- The line is composed, driven out and fed to the check unit (R38, R87; log 18). -/
def composeAndFeed (line : Nat) (failed : Fin 16 → Bool) (s : State) : State :=
  let pixels := composeLine s.palette s.session.plan.background (drawnLayers s failed) s.scan.timing.width
  { s with
    scan := { s.scan with line := pixels }
    check := { s.check with windows := tabulate fun w => (s.window w).map (feedWindow line pixels) } }

/-- The fetch for the next line of the frame, if there is one (R34, R35). At the start of the last active line there is
no fetch point; that the 16 line records then hold nothing is the model's choice (log 33). -/
def fetchNextLine (line : Nat) (s : State) : State :=
  if line + 1 < s.scan.timing.height then fetchPoint s.scan.timing.width (line + 1) s.scan.marks s
  else
    { s with scan := { s.scan with records := Vector.replicate 16 none, fetch := [] } }

/-- What every line start does: fetches examined, the line composed, the next line's fetch drawn up (R38 to R41). -/
def runLine (line : Nat) (s : State) : Act :=
  let slots := underrunSlots s
  let failed : Fin 16 → Bool := fun l => slots.contains l
  ((((Act.quiet s).forEach slots fun l => underrunSlot line l).change (composeAndFeed line failed)).change
    (dropFetch failed)).change (fetchNextLine line)

/-- The position at the start of a line. -/
def ScanEngine.toLine (c : ScanEngine) (phase : Phase) (line : Nat) : ScanEngine :=
  { c with phase, lineNo := line, pixelTime := 0 }

/-! ### LINE_START (R29, R38) -/

/-- A line start other than the frame's first is due: the ACTIVE phase has a further line. -/
def lineStartDue (s : State) : Bool :=
  decide (s.scan.phase = .active) && decide (s.scan.lineNo + 1 < s.scan.timing.height)

/-- The next active line starts. -/
def nextLine (s : State) : State :=
  let line := s.scan.lineNo + 1
  (runLine line { s with scan := s.scan.toLine .active line }).settleAndArbitrate

/-- LINE_START (R38 to R41). -/
def execLineStart (s : State) : Outcome :=
  .next (whenRunning (fun s => if lineStartDue s then nextLine s else s) s)

/-! ### LINE_ZERO_FETCH (R36) -/

/-- The fetch for line 0 is due: the BLANK phase has not reached its last line. -/
def lineZeroDue (s : State) : Bool :=
  decide (s.scan.phase = .blank) && decide (s.scan.lineNo + 1 < s.scan.timing.vblank)

/-- The fetch for line 0 against the active width of the plan in force, which governs the coming frame; no mark is
set yet (R33, R36). -/
def lineZeroFetch (s : State) : State :=
  let s := { s with scan := s.scan.toLine .blank (s.scan.timing.vblank - 1) }
  arbitrate (fetchPoint s.session.plan.timing.width 0 (Vector.replicate 16 false) s)

/-- LINE_ZERO_FETCH (R36). -/
def execLineZeroFetch (s : State) : Outcome :=
  .next (whenRunning (fun s => if lineZeroDue s then lineZeroFetch s else s) s)

/-! ### FRAME_START (R31, R32, R37, R86, R89, R173, R186) -/

/-- The frame fallback mark of a slot at a frame start: its source extent is CLEARING or DAMAGED (R37). -/
def frameMark (s : State) (r : Slot) : Bool :=
  match r with
  | .free => false
  | .held _ _ d =>
    match d.source with
    | none => false
    | some o =>
      decide (d.format ≠ .fill) &&
        match s.extent o.handle with
        | some e => decide (e.state ≠ .ready)
        | none => false

/-- The scan engine takes the new frame: counter, timing, output state, marks, an empty underrun set (R31 to R33, R37,
R40). -/
def beginFrame (s : State) : State :=
  { s with
    scan :=
      { s.scan.toLine .active 0 with
        timing := s.session.plan.timing
        frameCounter := s.scan.frameCounter + 1
        output := s.session.plan.output
        marks := tabulate fun l => frameMark s (s.slot l)
        underruns := Vector.replicate 16 false } }

/-- A window at a frame start: ARMED becomes RUNNING; a RUNNING window takes a fresh register and its taint flag from
its next-frame taint flag, and is tainted in a DARK frame; the next-frame taint flag clears (R86, R89). -/
def beginWindow (dark : Bool) (w : Window) : Window :=
  if w.taking then
    { w with state := .running, register := signatureStart, taint := w.nextTaint || dark, nextTaint := false }
  else { w with nextTaint := false }

/-- The check unit at a frame start (R86, R89). -/
def beginWindows (s : State) : State :=
  { s with
    check :=
      { windows := tabulate fun w => (s.window w).map (beginWindow (decide (s.scan.output = .dark)))
        moved := false } }

/-- The lease counter of a JOINED port with a lease runs down by one (R173). -/
def Session.runDown (r : Session) : Session :=
  if r.state = .joined ∧ r.lease ≠ 0 then { r with counter := r.counter - 1 } else r

/-- The frame starts remaining of a proposal in VOTING decrease by one (R186). -/
def PlanState.runDown : PlanState → PlanState
  | .voting q => .voting { q with remaining := q.remaining - 1 }
  | q => q

/-- The session unit's counts at a frame start (R173, R186). -/
def countFrame (s : State) : State :=
  { s with
    session :=
      { s.session with
        records := PerPort.tab fun p => (s.session.records.get p).runDown
        planState := s.session.planState.runDown } }

/-- A frame start is due: the BLANK phase is in its last line (R29). -/
def frameStartDue (s : State) : Bool :=
  decide (s.scan.phase = .blank) && decide (s.scan.lineNo + 1 = s.scan.timing.vblank)

/-- The frame start, which is also the line start of line 0: the fetches of marked layers are withdrawn first (R36,
R37), then the line is taken as any other. Expiries and a time-out that fall due here are events of their own
(log 4), so UNDERRUN of line 0 reaches a port before the events they send: the model's choice (log 35). -/
def startFrame (s : State) : State :=
  let s := beginWindows (beginFrame s)
  let s := dropFetch (fun l => s.scan.marks[l]) s
  ((runLine 0 s).change countFrame).settleAndArbitrate

/-- FRAME_START (R37). -/
def execFrameStart (s : State) : Outcome :=
  .next (whenRunning (fun s => if frameStartDue s then startFrame s else s) s)

end Sys2Proof.Machine
end

