-- ==== Sys2Proof/Machine/Blank.lean ====
section
/-! DEFINITION. The blank start: due batches judged and applied, reference counts and grants, the palette, finishing
windows, ends of teardown, and the adoption of a plan (03, R93 to R96, R112 to R117, R166, R178, R188, R189). -/

namespace Sys2Proof.Machine

/-! ### Due batches (R56) -/

/-- The number of the next frame, as read at a blank start (R31). -/
def nextFrame (s : State) : Half := s.scan.frameCounter + 1

/-- `n` is at or after `f` in the half-range order. -/
def atOrAfter (n f : Half) : Bool := decide ((n - f).toNat < 32768)

/-- A target that the next frame number has reached; a batch without a target is due at once (R56). -/
def targetReached (n : Half) : Option Half → Bool
  | none => true
  | some f => atOrAfter n f

/-- The port's batch is CLOSED and due (R56). -/
def batchDue (s : State) (p : PortId) : Bool :=
  let b := s.commit.batches.get p
  decide (b.state = .closed) && targetReached (nextFrame s) b.target

/-! ### Fit checks (R59 to R65) -/

/-- The slot is touched by a batch of the port: an edit names it, and the port owns it (R59). -/
def touches (s : State) (p : PortId) (edits : List Edit) (l : Fin 16) : Bool :=
  (s.slot l).ownedBy p && edits.any fun e => decide (e.slot? = some l)

/-- The block is named by a Publish edit of the batch (R59). -/
def publishes (edits : List Edit) (b : Fin 64) : Bool := edits.any fun e => decide (e.block? = some b)

/-- The projected depth of a slot the port holds OWNED; none when its projection ends retired (R60). -/
def projectedDepth (s : State) (p : PortId) (edits : List Edit) (l : Fin 16) : Option (Fin 64) :=
  match s.slot l with
  | .held .owned q d =>
    if q = p then
      let j := project l d edits
      if j.retire then none else some j.desc.z
    else none
  | _ => none

/-- Another slot of the port has the same projected depth (R60). -/
def depthClash (s : State) (p : PortId) (edits : List Edit) (l : Fin 16) (z : Fin 64) : Bool :=
  (List.finRange 16).any fun m => decide (m ≠ l) && decide (projectedDepth s p edits m = some z)

/-- The combinations of fields that a format forbids (R61). -/
def formatForbids (d : Descriptor) : Bool :=
  (decide (d.format ≠ .fill) && d.source.isNone) ||
  match d.format with
  | .index4 => d.paletteBase.isNone
  | .index8 =>
    match d.paletteBase with
    | some b => decide (b.val % 16 ≠ 0)
    | none => true
  | .marker2 => decide (64 < d.width) || decide (64 < d.height)
  | _ => false

/-- The port may name the extent from the slot whose live source is given: it owns it, its grant is GRANTED, or its
grant is WITHDRAWING and the live source already names the extent (R62). -/
def mayName (p : PortId) (h : Fin 32) (e : Extent) (live : Option Source) : Bool :=
  decide (e.owner = some p) ||
  match e.grants.get p with
  | .granted => true
  | .withdrawing => decide (live.map Source.handle = some h)
  | .none => false

/-- The projected descriptor reads past the extent, or its stride is too small (R63). -/
def outOfRange (d : Descriptor) (o : Source) (e : Extent) : Bool :=
  if d.format = .fill then decide (e.size ≤ o.offset)
  else
    decide (o.stride < lineBytes d) || decide (e.size < o.offset + (d.height - 1) * o.stride + lineBytes d)

/-- A block the projected descriptor needs is not owned by the port (R64). -/
def paletteMissing (s : State) (p : PortId) (d : Descriptor) : Bool :=
  (List.finRange 64).any fun b => usesBlock d b.val && !(s.block b).ownedBy p

/-- The source checks of a slot, in order (R62, R63). -/
def sourceFailure (s : State) (p : PortId) (live d : Descriptor) : Option RejectReason :=
  match d.source with
  | none => none
  | some o =>
    match s.extent o.handle with
    | none => some .sourceGone
    | some e =>
      if !mayName p o.handle e live.source then some .notGranted
      else if outOfRange d o e then some .sourceRange
      else none

/-- The first fit check a touched slot fails, with its live and its projected descriptor, in the order of R65. -/
def slotFailure (s : State) (p : PortId) (edits : List Edit) (l : Fin 16) (live d : Descriptor) :
    Option RejectReason :=
  if depthClash s p edits l d.z then some .depthClash
  else if !inBand d.z.val (s.quotas p).band then some .outOfBand
  else if formatForbids d then some .format
  else
    match sourceFailure s p live d with
    | some r => some r
    | none => if paletteMissing s p d then some .palette else none

/-- The 1-based position of the last edit that answers to a test; 0 when none does (R65). -/
def lastIndex (q : Edit → Bool) (edits : List Edit) : Nat :=
  edits.zipIdx.foldl (fun n e => if q e.1 then e.2 + 1 else n) 0

/-- What a rejected batch reports (R65). -/
structure Rejection where
  item : RejectItem
  editIndex : Nat
  reason : RejectReason
  deriving DecidableEq, Repr

/-- The failure of one touched slot that does not end retired (R59, R65). -/
def slotRejection (s : State) (p : PortId) (edits : List Edit) (l : Fin 16) : Option Rejection :=
  if touches s p edits l then
    match (s.slot l).live? with
    | none => none
    | some live =>
      let j := project l live edits
      if j.retire then none
      else
        (slotFailure s p edits l live j.desc).map fun r =>
          { item := .slot l, editIndex := lastIndex (fun e => decide (e.slot? = some l)) edits, reason := r }
  else none

/-- The failure of one published block (R64, R65). -/
def blockRejection (s : State) (p : PortId) (edits : List Edit) (b : Fin 64) : Option Rejection :=
  if publishes edits b && !(s.block b).ownedBy p then
    some { item := .block b, editIndex := lastIndex (fun e => decide (e.block? = some b)) edits, reason := .palette }
  else none

/-- The first fit check a batch fails: the touched slots in ascending order, then the published blocks (R65). -/
def batchFailure (s : State) (p : PortId) (edits : List Edit) : Option Rejection :=
  match (List.finRange 16).findSome? (slotRejection s p edits) with
  | some r => some r
  | none => (List.finRange 64).findSome? (blockRejection s p edits)

/-! ### Applying (R66 to R70, R74) -/

/-- What a blank start does with a port's batch. -/
inductive Verdict where
  | wait
  | apply (edits : List Edit)
  | reject (r : Rejection)
  deriving DecidableEq, Repr

/-- The verdict on a port's batch, against the state as it stands at the blank start (R58). -/
def verdict (s : State) (p : PortId) : Verdict :=
  if batchDue s p then
    match batchFailure s p (s.commit.batches.get p).edits with
    | none => .apply (s.commit.batches.get p).edits
    | some r => .reject r
  else .wait

/-- The slot after a batch of its owner is applied (R66). -/
def applySlot (s : State) (p : PortId) (l : Fin 16) (d : Descriptor) (edits : List Edit) : Slot :=
  if touches s p edits l then
    let j := project l d edits
    if j.retire then .free else .held .owned p j.desc
  else .held .owned p d

/-- The teardown of the port ends at this blank start (R74, R178). -/
def teardownEnds (s : State) (p : PortId) : Bool := decide (s.sessionState p = .draining)

/-- A slot after the blank start: applied, kept, or freed with the teardown of its port (R66, R74). -/
def blankSlot (s : State) (l : Fin 16) : Slot :=
  match s.slot l with
  | .free => .free
  | .held .retiring p d => if teardownEnds s p then .free else .held .retiring p d
  | .held .owned p d =>
    match verdict s p with
    | .apply edits => applySlot s p l d edits
    | _ => .held .owned p d

/-- A port's buffer after the blank start: EMPTY once its batch is taken (R66). -/
def blankBatch (s : State) (p : PortId) : Batch :=
  match verdict s p with
  | .wait => s.commit.batches.get p
  | _ => emptyBatch

/-- The block is published by an applied batch of some port (R68). -/
def published (s : State) (b : Fin 64) : Bool :=
  allPorts.any fun p => match verdict s p with
    | .apply edits => publishes edits b
    | _ => false

/-- The event for a port's batch (R70). -/
def batchEvent (s : State) (p : PortId) : List (Origin × Msg) :=
  match verdict s p with
  | .wait => []
  | .apply edits => [(.commit, .event p (.batchApplied p (nextFrame s) edits.length))]
  | .reject r => [(.commit, .event p (.batchRejected p r.item r.editIndex r.reason))]

/-- The commit engine at the blank start. -/
def commitBlank (s : State) : Act :=
  ⟨{ s with commit := { slots := tabulate (blankSlot s), batches := PerPort.tab (blankBatch s) } },
   allPorts.flatMap (batchEvent s)⟩

/-! ### Reference counts and grants (R67, R74, R112, R113, R116, R117) -/

/-- The slot is held by the port and its live source names the extent (R67). -/
def draws (p : PortId) (h : Fin 32) (r : Slot) : Bool :=
  match r with
  | .held _ q d => decide (q = p) && decide (d.source.map Source.handle = some h)
  | .free => false

/-- The number of the port's slots whose live source names the extent (R67). -/
def drawing (slots : Vector Slot 16) (p : PortId) (h : Fin 32) : Nat := howMany fun l => draws p h slots[l]

/-- A reference count after the changes from one layer table to the next (R67, R74). -/
def recount (before after : Vector Slot 16) (p : PortId) (h : Fin 32) (count : Nat) : Nat :=
  count + drawing after p h - drawing before p h

/-- The extent manager records every change of the reference counts (R113). -/
def recordCounts (before : Vector Slot 16) (s : State) : State :=
  { s with extents :=
      { s.extents with records := tabulate fun h => (s.extent h).map fun e =>
          { e with counts := PerPort.tab fun p => recount before s.commit.slots p h (e.counts.get p) } } }

/-- The two GRANT_ENDED of a withdrawal that ends, or the one when the extent is an orphan, or none when the grantee
is its former owner (R112). -/
def withdrawalEvents (e : Extent) (h : Fin 32) (p : PortId) : List (Origin × Msg) :=
  match e.owner with
  | some o => [(.extents, .event p (.grantEnded h o)), (.extents, .event o (.grantEnded h p))]
  | none => if e.allocator = p then [] else [(.extents, .event p (.grantEnded h e.allocator))]

/-- A count that has fallen to 0 ends the port's WITHDRAWING grant (R112). -/
def endWithdrawal (old : Extent) (h : Fin 32) (p : PortId) (s : State) : Act :=
  match s.extent h with
  | none => .quiet s
  | some e =>
    if e.grants.get p = .withdrawing ∧ old.counts.get p ≠ 0 ∧ e.counts.get p = 0 then
      (Act.mk (setGrant h p .none s) (withdrawalEvents e h p)).andThen (noticeGrantNone h p)
    else .quiet s

/-- Any other grant of a port whose teardown ends becomes NONE, with no event (R117). -/
def clearGrant (h : Fin 32) (p : PortId) (s : State) : Act :=
  match s.extent h with
  | none => .quiet s
  | some e => if e.grants.get p = .none then .quiet s else noticeGrantNone h p (setGrant h p .none s)

/-- One extent after all counts of the blank start are recorded (R113, R116, R117). -/
def extentBlank (old : State) (h : Fin 32) (s : State) : Act :=
  match old.extent h with
  | none => .quiet s
  | some before =>
    (((Act.quiet s).forEach allPorts (endWithdrawal before h)).forEach
      (allPorts.filter (teardownEnds old)) (clearGrant h)).andThen (releaseIfUnreferenced h)

/-- The extent manager at the blank start; `old` is the state the blank start found. -/
def extentsBlank (old s : State) : Act :=
  (Act.quiet (recordCounts old.commit.slots s)).forEach (List.finRange 32) (extentBlank old)

/-! ### Finishing windows (R93 to R96) -/

/-- The result of a finishing window (R93). -/
def windowResult (w : Window) : WinResult :=
  if w.taint then .indeterminate
  else
    match w.expected with
    | none => .learned
    | some v => if w.register = v then .pass else .fail

/-- The record after the result (R93, R94). -/
def recordResult (w : Window) : Window :=
  let result := windowResult w
  { w with
    expected := if result = .learned then some w.register else w.expected
    lastSignature := some w.register
    lastResult := result
    checked := min 65535 (w.checked + 1)
    consecutive := match result with
      | .pass => 0
      | .fail => w.consecutive + 1
      | _ => w.consecutive
    total := if result = .fail then min 65535 (w.total + 1) else w.total }

/-- The consecutive fails have reached the threshold (R95, R96). -/
def Window.faulty (w : Window) : Bool := decide (w.settings.threshold ≤ w.consecutive)

/-- The next state of a finishing window (R96). -/
def Window.afterFrame (w : Window) : WinState :=
  if w.faulty then .halted
  else
    match w.settings.mode with
    | .oneShot => .idle
    | .continuous => .running

/-- The ports a CHECK_FAULT goes to (R95). -/
def faultAudience (s : State) (w : Window) : List PortId :=
  match w.settings.scope with
  | .owner => [w.owner]
  | .all => joinedPorts s

/-- The events of a finishing window, CHECK_RESULT before CHECK_FAULT (R95). -/
def windowEvents (s : State) (n : Fin 8) (w : Window) : List (Origin × Msg) :=
  (match w.settings.report with
    | .results => [(Origin.check, Msg.event w.owner (.checkResult n w.lastResult w.register))]
    | .faults => []) ++
  if w.faulty then
    (faultAudience s w).map fun p => (.check, .event p (.checkFault n w.owner w.consecutive w.register))
  else []

/-- One window at the blank start: a RUNNING one finishes (R93 to R96). -/
def windowBlank (n : Fin 8) (s : State) : Act :=
  match s.window n with
  | none => .quiet s
  | some w =>
    if w.state = .running then
      let w := recordResult w
      ⟨s.setWindow n (some { w with state := w.afterFrame }), windowEvents s n w⟩
    else .quiet s

/-- The check unit at the blank start, in ascending window number (R95). -/
def windowsBlank (s : State) : Act := (Act.quiet s).forEach (List.finRange 8) windowBlank

/-! ### Adoption (R188, R189) -/

/-- The slot's depth lies in the band, if the port holds the slot. -/
def slotInBand (band : Option Band) (p : PortId) (r : Slot) : Bool :=
  match r with
  | .held _ q d => decide (q ≠ p) || inBand d.z.val band
  | .free => true

/-- The window lies inside the active area, if the port owns it. -/
def windowInside (t : Timing) (p : PortId) (w : Option Window) : Bool :=
  match w with
  | some r => decide (r.owner ≠ p) || insideActive t r.settings
  | none => true

/-- The first check of the proposed plan that a port's usage fails (R188). -/
def portUnfit (s : State) (k : Plan) (p : PortId) : Option PlanFailure :=
  let q := k.quotas.get p
  if q.layers < slotsHeld s p ∨ q.extents < extentsOwned s p ∨ q.rows < rowsOwned s p ∨ q.blocks < blocksOwned s p ∨
      q.windows < windowsOwned s p then
    some .overQuota
  else if ((List.finRange 16).all fun l => slotInBand q.band p (s.slot l)) &&
      (List.finRange 8).all fun n => windowInside k.timing p (s.window n) then none
  else some .geometry

/-- The first port, in ascending number, that does not fit the plan, with the reason; ABSENT ports are not read
(R188). -/
def planUnfit (s : State) (k : Plan) : Option (PlanFailure × PortId) :=
  (allPorts.filter fun p => decide (s.sessionState p ≠ .absent)).findSome? fun p =>
    (portUnfit s k p).map fun r => (r, p)

/-- The adoption at a blank start that finds the state ADOPTING; it reads the usage after the other changes of the
blank start (R188, R189). -/
def adoptionBlank (s : State) : Act :=
  match s.session.planState with
  | .adopting q =>
    match planUnfit s q.plan with
    | some f => (Act.quiet (s.setPlanState .steady)).sendAll .plan (joinedPorts s) (.planFailed f.1 f.2)
    | none =>
      (Act.quiet { s with session := { s.session with plan := q.plan, planState := .steady } }).sendAll .plan
        (joinedPorts s) (.planAdopted (planDigest q.plan))
  | _ => .quiet s

/-! ### BLANK_START -/

/-- The session unit makes the sessions whose teardown ends ABSENT (R178). -/
def sessionsBlank (old s : State) : Act :=
  ⟨s, (allPorts.filter (teardownEnds old)).map fun p => (.session, .sessionEnd p)⟩

/-- The blank start is due: the ACTIVE phase is in its last line (R29). -/
def blankStartDue (s : State) : Bool :=
  decide (s.scan.phase = .active) && decide (s.scan.lineNo + 1 = s.scan.timing.height)

/-- All that the blocks do at a blank start. -/
def blankAct (s : State) : Act :=
  (((((commitBlank { s with scan := s.scan.toLine .blank 0 }).andThen (extentsBlank s)).change
    (paletteBlank (published s) (teardownEnds s))).andThen windowsBlank).andThen (sessionsBlank s)).andThen
    adoptionBlank

/-- The blank start. -/
def startBlank (s : State) : State := (blankAct s).settleAndArbitrate

/-- BLANK_START (R29, R56 to R70, R74, R93 to R96, R188, R189). -/
def execBlankStart (s : State) : Outcome :=
  .next (whenRunning (fun s => if blankStartDue s then startBlank s else s) s)

end Sys2Proof.Machine
end

