-- ==== Sys2Proof/Machine/Extents.lean ====
section
/-! DEFINITION. The six extent requests (R102 to R123). -/

namespace Sys2Proof.Machine

/-! ### Alloc Extent (R103) -/

/-- The record of a new extent (R103). -/
def newExtent (p : PortId) (firstRow rows : Nat) : Extent :=
  { owner := some p, allocator := p, firstRow, rows, state := .clearing, progress := 0, lost := 0,
    grants := ⟨.none, .none, .none, .none⟩, counts := ⟨0, 0, 0, 0⟩ }

/-- Alloc Extent, with the outcomes in the order of R103. -/
def allocExtentBody (p : PortId) (payload : List Byte) (s : State) : Act :=
  match within 1 4096 (field payload 0 2) with
  | none => answer p .field [] s
  | some n =>
    if (s.quotas p).extents ≤ extentsOwned s p ∨ (s.quotas p).rows < rowsOwned s p + n then answer p .quota [] s
    else
      match lowest fun h => (s.extent h).isNone with
      | none => answer p .full [] s
      | some h =>
        match firstFit (takenRuns s) n with
        | none => answer p .noSpace [] s
        | some g =>
          answer p .ok (byteOf h.val :: encode16 g)
            ((s.setExtent h (some (newExtent p g n))).setClearList p (s.extents.clearLists.get p ++ [h]))

/-- ALLOC_EXTENT (R103); the clear engine's first write may be granted at once (R105, R129). -/
def execAllocExtent (p : PortId) (s : State) : Outcome :=
  .next (serve p (requestRow 0x18) .joinedOnly (allocExtentBody p) Act.settleAndArbitrate s)

/-! ### Requests that name an extent (R102) -/

/-- The refusals common to the owner's requests, then the request's own rule (R102). -/
def onOwnExtent (p : PortId) (payload : List Byte) (s : State) (body : Fin 32 → Extent → Act) : Act :=
  match below 32 (fieldByte payload 0) with
  | none => answer p .field [] s
  | some h =>
    match s.extent h with
    | none => answer p .noObject [] s
    | some e => if e.owner = some p then body h e else answer p .notOwner [] s

/-- Free Extent (R107, R108). -/
def freeExtentBody (p : PortId) (payload : List Byte) (s : State) : Act :=
  onOwnExtent p payload s fun h e =>
    if e.unreferenced then (answer p .ok [] s).andThen (releaseExtent h) else answer p .inUse [] s

/-- FREE_EXTENT (R107). -/
def execFreeExtent (p : PortId) (s : State) : Outcome :=
  .next (serve p (requestRow 0x19) .joinedOnly (freeExtentBody p) Act.settleAndArbitrate s)

/-- The target port of a Grant or Revoke is read with the handle: either out of range is answered FIELD before the
extent is looked at (R102, step 2). -/
def onOwnExtentAndPort (p : PortId) (payload : List Byte) (s : State) (body : Fin 32 → Extent → PortId → Act) : Act :=
  match decodePort (fieldByte payload 1) with
  | none => answer p .field [] s
  | some q => onOwnExtent p payload s fun h e => body h e q

/-- Grant (R110). -/
def grantBody (p : PortId) (payload : List Byte) (s : State) : Act :=
  onOwnExtentAndPort p payload s fun h _ q =>
    if q = p ∨ s.sessionState q ≠ .joined then answer p .field [] s
    else answer p .ok [] (setGrant h q .granted s)

/-- GRANT (R110). -/
def execGrant (p : PortId) (s : State) : Outcome :=
  .next (serve p (requestRow 0x1A) .joinedOnly (grantBody p) Act.settle s)

/-- Revoke (R111). -/
def revokeBody (p : PortId) (payload : List Byte) (s : State) : Act :=
  onOwnExtentAndPort p payload s fun h _ q =>
    if q = p then answer p .field [] s else (answer p .ok [] s).andThen (revokeGrant h p q)

/-- REVOKE (R111). -/
def execRevoke (p : PortId) (s : State) : Outcome :=
  .next (serve p (requestRow 0x1B) .joinedOnly (revokeBody p) Act.settleAndArbitrate s)

/-- Mend (R121). -/
def mendBody (p : PortId) (payload : List Byte) (s : State) : Act :=
  onOwnExtent p payload s fun h e =>
    match e.state with
    | .clearing => answer p .busy [] s
    | .ready => answer p .ok [] s
    | .damaged => answer p .ok [] (s.setExtent h (some { e with state := .ready, lost := 0 }))

/-- MEND (R121). -/
def execMend (p : PortId) (s : State) : Outcome :=
  .next (serve p (requestRow 0x1C) .joinedOnly (mendBody p) Act.settle s)

/-! ### Get Extent (R123) -/

/-- The port may read the extent: its owner, or the holder of a GRANTED or WITHDRAWING grant (R109, R123). -/
def mayRead (e : Extent) (p : PortId) : Bool := decide (e.owner = some p) || decide (e.grants.get p ≠ .none)

/-- The grant state of each port; the owner's own entry reads NONE (11.2). -/
def grantBytes (e : Extent) : List Byte :=
  allPorts.map fun p => if e.owner = some p then 0 else grantCode (e.grants.get p)

/-- The payload of a Get Extent response, 17 bytes. -/
def extentPayload (e : Extent) : List Byte :=
  [encodeOwner e.owner] ++ encode16 e.firstRow ++ encode16 e.rows ++ [extentStateCode e.state] ++
    encode16 e.progress ++ [byteOf e.lost] ++ grantBytes e ++ allPorts.map fun p => byteOf (e.counts.get p)

/-- Get Extent (R123). -/
def getExtentBody (p : PortId) (payload : List Byte) (s : State) : Act :=
  match below 32 (fieldByte payload 0) with
  | none => answer p .field [] s
  | some h =>
    match s.extent h with
    | none => answer p .noObject [] s
    | some e => if mayRead e p then answer p .ok (extentPayload e) s else answer p .notGranted [] s

/-- GET_EXTENT (R123). -/
def execGetExtent (p : PortId) (s : State) : Outcome :=
  .next (serve p (requestRow 0x1D) .joinedOnly (getExtentBody p) Act.settle s)

end Sys2Proof.Machine
end

