-- ==== Sys2Proof/Machine/HostTransfers.lean ====
section
/-! DEFINITION. Seek, Write, Read and Update (R142 to R149). -/

namespace Sys2Proof.Machine

/-! ### Refusals (R142) -/

/-- The cursor and the record of its extent, for Write, Read and Update (R142, step 3). -/
def cursorExtent (s : State) (p : PortId) : Option (Cursor × Extent) :=
  match (s.transfer.get p).cursor with
  | none => none
  | some c => (s.extent c.handle).map fun e => (c, e)

/-- The transfer starts: the port's request is executing until its last access completes (R144, R196). -/
def startJob (p : PortId) (j : Job) (s : State) : State :=
  let s := s.setPort p { s.ports.get p with executing := true }
  s.setTransfer p { s.transfer.get p with job := some j }

/-! ### Seek (R143) -/

/-- The cursor set, the buffer emptied (R143). -/
def setCursor (p : PortId) (c : Cursor) (s : State) : State :=
  let s := emptyBuffer p s
  s.setTransfer p { s.transfer.get p with cursor := some c }

/-- Seek (R142, R143). An offset above 2,097,151 is outside its range (log 16). -/
def seekBody (p : PortId) (payload : List Byte) (s : State) : Act :=
  match below 32 (fieldByte payload 0), within 0 2097151 (field payload 1 3) with
  | some h, some offset =>
    match s.extent h with
    | none => answer p .noObject [] s
    | some e =>
      if !mayRead e p then answer p .notGranted [] s
      else if e.size ≤ offset then answer p .range [] s
      else answer p .ok [] (setCursor p ⟨h, offset⟩ s)
  | _, _ => answer p .field [] s

/-- SEEK (R143). -/
def execSeek (p : PortId) (s : State) : Outcome :=
  .next (serve p (requestRow 0x20) .joinedOnly (seekBody p) Act.settle s)

/-! ### Write (R145) -/

/-- Write (R142, R145): the buffer emptied, one write access presented for each row; answered at the last
completion. -/
def writeBody (p : PortId) (payload : List Byte) (s : State) : Act :=
  match cursorExtent s p with
  | none => answer p .noObject [] s
  | some (c, e) =>
    if e.owner ≠ some p then answer p .notOwner [] s
    else if e.state = .clearing then answer p .busy [] s
    else if e.size < c.offset + payload.length then answer p .range [] s
    else
      .quiet (startJob p
        { kind := .write payload.length, handle := c.handle, offset := c.offset,
          parts := writeParts e.firstRow c.offset payload, damage := false, detached := false }
        (emptyBuffer p s))

/-- WRITE (R145). -/
def execWrite (p : PortId) (s : State) : Outcome :=
  .next (serve p (requestRow 0x21) .joinedOnly (writeBody p) Act.settleAndArbitrate s)

/-! ### Read (R147, R148) -/

/-- How the buffer serves a Read of `n` bytes at the cursor (R147). -/
inductive BufferUse where
  | serve (bytes : List Byte)
  | wait
  | none
  deriving DecidableEq, Repr

/-- The buffer's range contains every byte of the Read. -/
def covers (start len offset n : Nat) : Bool := decide (start ≤ offset) && decide (offset + n ≤ start + len)

/-- What the buffer does for the Read (R147). -/
def bufferUse (b : ReadAhead) (c : Cursor) (n : Nat) : BufferUse :=
  match b with
  | .empty => .none
  | .fetching h start len _ => if h = c.handle ∧ covers start len c.offset n then .wait else .none
  | .valid h start bytes =>
    if h = c.handle ∧ covers start bytes.length c.offset n then
      .serve ((bytes.drop (c.offset - start)).take n)
    else .none

/-- Read (R142, R147, R148). -/
def readBody (p : PortId) (payload : List Byte) (s : State) : Act :=
  match within 1 64 (fieldByte payload 0) with
  | none => answer p .field [] s
  | some n =>
    match cursorExtent s p with
    | none => answer p .noObject [] s
    | some (c, e) =>
      if !mayRead e p then answer p .notGranted [] s
      else if e.size < c.offset + n then answer p .range [] s
      else
        let job : Job :=
          { kind := .read n, handle := c.handle, offset := c.offset, parts := readParts e.firstRow c.offset n,
            damage := decide (e.state = .damaged), detached := false }
        match bufferUse (s.transfer.get p).buffer c n with
        | .serve bytes => finishRead p { job with damage := false } bytes s
        | .wait => .quiet (startJob p { job with kind := .readBuffered n, parts := [] } s)
        | .none => .quiet (startJob p job (emptyBuffer p s))

/-- READ (R147). -/
def execRead (p : PortId) (s : State) : Outcome :=
  .next (serve p (requestRow 0x22) .joinedOnly (readBody p) Act.settleAndArbitrate s)

/-! ### Update (R149) -/

/-- Update (R142, R149). -/
def updateBody (p : PortId) (payload : List Byte) (s : State) : Act :=
  match decodeUpdateOp (fieldByte payload 0) with
  | none => answer p .field [] s
  | some op =>
    match cursorExtent s p with
    | none => answer p .noObject [] s
    | some (c, e) =>
      if e.owner ≠ some p then answer p .notOwner [] s
      else if c.offset % 4 ≠ 0 then answer p .field [] s
      else if e.state = .clearing then answer p .busy [] s
      else if e.size < c.offset + 4 then answer p .range [] s
      else
        let part : Part :=
          { row := e.firstRow + c.offset / rowBytes, status := .waiting,
            kind := .update (c.offset % rowBytes) op (BitVec.ofNat 32 (field payload 1 4)) }
        .quiet (startJob p
          { kind := .update, handle := c.handle, offset := c.offset, parts := [part], damage := false,
            detached := false }
          (emptyBuffer p s))

/-- UPDATE (R149). -/
def execUpdate (p : PortId) (s : State) : Outcome :=
  .next (serve p (requestRow 0x23) .joinedOnly (updateBody p) Act.settleAndArbitrate s)

end Sys2Proof.Machine
end

