-- ==== Sys2Proof/Machine/Ports.lean ====
section
/-! DEFINITION. Transactions on the host links, acceptance of requests, and requests with an unlisted code (10). -/

namespace Sys2Proof.Machine

/-! ### Transaction start (R192) -/

/-- The transaction that begins: the head of the outbound queue, or an IDLE frame, with the status byte and check
byte formed now (R192, R202). -/
def newTransaction (c : PortController) (session : SessionState) (voting : Bool) : Transaction :=
  let status := statusByte c session voting
  match c.outbound with
  | [] => { fixed := .idle, bytes := sealFrame status idleBody, shown := c.flags, since := noFlags }
  | f :: _ => { fixed := .head, bytes := sealFrame status (frameBody f), shown := c.flags, since := noFlags }

/-- SEL_n falls at a running port (R192). -/
def startTransaction (p : PortId) (s : State) : State :=
  let c := s.ports.get p
  s.setPort p
    { c with selHigh := false,
             transaction := some (newTransaction c (s.sessionState p) (voteDue s.session.planState p)) }

/-- TRANSACTION_START. SEL_n that is already low does not fall (log 2). While RESET_N is low the port takes no
notice of SEL_n; only the level of the pin changes (R206). -/
def execTransactionStart (p : PortId) (s : State) : Outcome :=
  .next
    (if (s.ports.get p).selHigh then
      if s.resetN then startTransaction p (takeDue s)
      else s.setPort p { s.ports.get p with selHigh := false }
    else whenRunning id s)

/-! ### Delivery (R194) -/

/-- The frame of the transaction, if delivered: a queued frame leaves the queue, and the flags it showed are
cleared. A frame that a lease expiry has removed meanwhile does neither (R194). -/
def deliverFrame (t : Transaction) (c : PortController) : PortController :=
  match t.fixed with
  | .idle => { c with flags := clearShown c.flags t.shown t.since }
  | .head => { c with outbound := c.outbound.tail, flags := clearShown c.flags t.shown t.since }
  | .removed => c

/-- The transaction clocked every byte of its outbound frame (R194). -/
def Transaction.delivered (t : Transaction) (clocked : Nat) : Bool := decide (t.bytes.length ≤ clocked)

/-! ### Judging the inbound bytes (R193) -/

/-- What the inbound bytes of a transaction are (R193). -/
inductive Inbound where
  | nothing
  | poll
  | bad
  | request (r : Request)
  deriving DecidableEq, Repr

/-- The inbound bytes judged: the first case of R193 that applies. -/
def judgeInbound (bytes : List Byte) : Inbound :=
  match bytes with
  | [] => .nothing
  | first :: _ =>
    let len := first.toNat
    if len = 0xFF then .poll
    else if 0x51 ≤ len then .bad
    else if bytes.length < len + 4 then .bad
    else if bytes.getD (len + 3) 0 ≠ crc8 (bytes.take (len + 3)) then .bad
    else .request { tag := bytes.getD 1 0, code := bytes.getD 2 0, payload := (bytes.drop 3).take len }

/-- FRAME_ERROR is set (R203). -/
def setFrameError (c : PortController) : PortController := { c with flags := { c.flags with frameError := true } }

/-- OVERRUN is set (R203). -/
def setOverrun (c : PortController) : PortController := { c with flags := { c.flags with overrun := true } }

/-- A request acceptance reloads the lease counter of a JOINED port (R173). -/
def reloadLease (p : PortId) (s : State) : State :=
  let r := s.session.records.get p
  if r.state = .joined then s.setSession p { r with counter := r.lease } else s

/-- A valid request frame: accepted while there is credit, else discarded with OVERRUN (R195). -/
def acceptRequest (p : PortId) (r : Request) (s : State) : State :=
  let c := s.ports.get p
  if credit c = 0 then s.setPort p (setOverrun c)
  else reloadLease p (s.setPort p { c with requests := c.requests ++ [r] })

/-- The inbound bytes of the transaction are taken (R193, R195). -/
def takeInbound (p : PortId) (bytes : List Byte) (s : State) : State :=
  match judgeInbound bytes with
  | .nothing => s
  | .poll => s
  | .bad => s.setPort p (setFrameError (s.ports.get p))
  | .request r => acceptRequest p r s

/-- SEL_n rises at the end of a transaction: delivery is decided first, then the inbound bytes are judged (R193,
R194). As many outbound as inbound bytes were exchanged (R191). -/
def endTransaction (p : PortId) (t : Transaction) (bytes : List Byte) (s : State) : State :=
  let c := { s.ports.get p with selHigh := true, transaction := none }
  let c := if t.delivered bytes.length then deliverFrame t c else c
  takeInbound p bytes (s.setPort p c)

/-- TRANSACTION_END. Bits clocked after the last complete byte are ignored (R191). A low period of SEL_n that spans
the release of RESET_N has no transaction end; the pin rises and no more (R206). -/
def execTransactionEnd (p : PortId) (inbound : List Byte) (_strayBits : Nat) (s : State) : Outcome :=
  .next
    (if (s.ports.get p).selHigh then whenRunning id s
    else if s.resetN then
      let s := takeDue s
      match (s.ports.get p).transaction with
      | some t => endTransaction p t inbound s
      | none => s.setPort p { s.ports.get p with selHigh := true }
    else s.setPort p { s.ports.get p with selHigh := true })

/-! ### Unlisted codes (R197) -/

/-- A request with an unlisted code is answered UNKNOWN in every session state (R197). -/
def serveUnknown (p : PortId) (s : State) : State :=
  whenRunning (fun s =>
    match (s.ports.get p).nextRequest with
    | none => s
    | some r => if codeListed r.code then s else (answer p .unknown [] s).settle) s

/-- UNKNOWN_CODE (R197). -/
def execUnknownCode (p : PortId) (s : State) : Outcome := .next (serveUnknown p s)

end Sys2Proof.Machine
end

