-- ==== Sys2Proof/Machine/Refresh.lean ====
section
/-! DEFINITION. Ticks and access completions: the refresh engine, and what a completed row access does to its row, to
its requester and to the transfer units (R126, R132 to R138). -/

namespace Sys2Proof.Machine

/-! ### TICK (R135, R137, R138) -/

/-- The greatest length of an owed list (R134). -/
def maxOwed : Nat := 8

/-- The refresh request: kept while there is one, else the oldest owed row (R137). -/
def RefreshBank.ask (r : RefreshBank) : RefreshBank :=
  { r with request := match r.request with
      | some x => some x
      | none => r.owed.head? }

/-- What a tick makes of the due row (R135). -/
inductive TickOutcome where
  | hidden | owed | lost
  deriving DecidableEq, Repr

/-- The case of R135 that the due row falls under. -/
def RefreshBank.tickOutcome (r : RefreshBank) : TickOutcome :=
  if r.fresh.getLsb r.due then .hidden
  else if r.owed.contains r.due then .lost
  else if r.owed.length < maxOwed then .owed
  else .lost

/-- A fresh flag set or cleared. -/
def RefreshBank.withFresh (r : RefreshBank) (x : Fin 1024) (v : Bool) : RefreshBank :=
  { r with fresh := if v then r.fresh ||| BitVec.twoPow 1024 x.val else r.fresh &&& ~~~(BitVec.twoPow 1024 x.val) }

/-- The refresh state of a bank after a tick (R135, R137). -/
def RefreshBank.tick (r : RefreshBank) : RefreshBank :=
  let after := match r.tickOutcome with
    | .hidden => r.withFresh r.due false
    | .owed => { r with owed := r.owed ++ [r.due] }
    | .lost => r
  { after.ask with due := r.due + 1, ticks := r.ticks + 1 }

/-- The bytes of a lost row may have changed in any bit: they become free values (R138; log 8). -/
def scrambleRow (g : Nat) (s : State) : State :=
  { s with
    store := s.store.writeAt g 0
      ((List.range rowBytes).map fun i => Config.unspecifiedByte (s.freeCount + 1) (byteAddress g i))
    freeCount := s.freeCount + 1 }

/-- A tick of a bank; a lost row is reported to the extent manager (R135, R138). -/
def tickBank (b : BankId) (s : State) : Act :=
  let r := s.refresh.get b
  let s := s.setRefresh b r.tick
  match r.tickOutcome with
  | .lost => lostRow (globalRowOf b r.due) (scrambleRow (globalRowOf b r.due) s)
  | _ => .quiet s

/-- TICK (R135, R137, R138). -/
def execTick (b : BankId) (s : State) : Outcome :=
  .next (whenRunning (fun s => (tickBank b s).settleAndArbitrate) s)

/-! ### ACCESS_COMPLETION -/

/-- The operation of an Update on the old word (R149). -/
def UpdateOp.apply : UpdateOp → Word → Word → Word
  | .and, a, b => a &&& b
  | .or, a, b => a ||| b
  | .xor, a, b => a ^^^ b

/-- The word of four bytes, the first the most significant (R149). -/
def wordOf (bytes : List Byte) : Word := BitVec.ofNat 32 (decodeNat bytes)

/-- The bytes handed to the requester at the completion: those read, or the old word of an update (R132). -/
def handedOver (m : Store) (a : Access) : List Byte :=
  match a.kind with
  | .read lo len => m.bytesAt a.row lo len
  | .write _ _ => []
  | .update lo _ _ => m.bytesAt a.row lo 4
  | .refresh => []

/-- The store after the completion (R126). -/
def Store.complete (m : Store) (a : Access) : Store :=
  match a.kind with
  | .read _ _ => m
  | .write lo bytes => m.writeAt a.row lo bytes
  | .update lo op operand => m.writeAt a.row lo (encode32 (op.apply (wordOf (m.bytesAt a.row lo 4)) operand).toNat)
  | .refresh => m

/-- The refresh engine takes a completed row: off the owed list, or fresh; the request then names the oldest owed row,
if any (R136, R137). -/
def RefreshBank.complete (r : RefreshBank) (x : Fin 1024) : RefreshBank :=
  let after := if r.owed.contains x then { r with owed := r.owed.filter fun y => decide (y ≠ x) } else r.withFresh x true
  { after with request := after.owed.head? }

/-- The write notice of the access, if it sends one (R133). -/
def sendWriteNotice (a : Access) (s : State) : State :=
  match a.kind with
  | .write lo bytes => noticeWrite a.row lo (lo + bytes.length - 1) s
  | .update lo _ _ => noticeWrite a.row lo (lo + 3) s
  | _ => s

/-- The scan engine takes the bytes of its completed access (R35). -/
def scanCompleted (b : BankId) (bytes : List Byte) : List FetchPart → List FetchPart
  | [] => []
  | f :: rest =>
    if f.part.grantedAt b then { f with part := { f.part with status := .done bytes } } :: rest
    else f :: scanCompleted b bytes rest

/-- The read-ahead buffer takes the bytes of its completed access. -/
def ReadAhead.completeAt (b : BankId) (bytes : List Byte) : ReadAhead → ReadAhead
  | .fetching h start len l => .fetching h start len (markDone b bytes l)
  | other => other

/-- The transfer unit takes its completed access: a part of the transfer in progress, else of the read-ahead; the
transfer or the fetch ends with its last (R144 to R151). -/
def transferCompleted (p : PortId) (b : BankId) (bytes : List Byte) (s : State) : Act :=
  let u := s.transfer.get p
  if (jobParts u.job).any (Part.grantedAt b) then
    finishJob p (s.setTransfer p { u with job := u.job.map fun j => { j with parts := markDone b bytes j.parts } })
  else finishFetch p (s.setTransfer p { u with buffer := u.buffer.completeAt b bytes })

/-- The result of the access goes to its requester; one that has given it up takes nothing (R131, R132). -/
def handOver (a : Access) (b : BankId) (bytes : List Byte) (s : State) : Act :=
  if a.wanted then
    match a.requester with
    | .refresh => .quiet s
    | .scan => .quiet { s with scan := { s.scan with fetch := scanCompleted b bytes s.scan.fetch } }
    | .transfer p => transferCompleted p b bytes s
    | .clear p => clearCompleted p a.row s
  else .quiet s

/-- The access in flight at the bank completes: the row and the store change, the refresh engine and the transfer
units are told, and the requester takes its result (R126, R132). -/
def completeAccess (b : BankId) (a : Access) (s : State) : Act :=
  let bytes := handedOver s.store a
  let s := { s with store := s.store.complete a }
  let s := s.setBank b { s.banks.get b with inFlight := none }
  let s := s.setRefresh b ((s.refresh.get b).complete (bankRowOf a.row))
  handOver a b bytes (sendWriteNotice a s)

/-- ACCESS_COMPLETION; without an access in flight at the bank there is none to complete (log 2). -/
def execAccessCompletion (b : BankId) (s : State) : Outcome :=
  .next (whenRunning (fun s =>
    match (s.banks.get b).inFlight with
    | some a => (completeAccess b a s).settleAndArbitrate
    | none => s) s)

end Sys2Proof.Machine
end

