-- ==== Sys2Proof/Machine/ResetUnit.lean ====
section
/-! DEFINITION. RESET_N going low and going high (R3, R42, R45, R78, R101, R139, R157, R206, R211). -/

namespace Sys2Proof.Machine

/-- The shortest low pulse of RESET_N with an effect, in nanoseconds (R211). -/
def resetPulse : Nat := 1000

/-- The controllers at and after a reset: nothing held, each SEL_n at the level it has (R206). -/
def portsAtReset (s : State) : PerPort PortController := PerPort.tab fun p => resetPort (s.ports.get p).selHigh

/-- The store with contents that are unspecified anew (R101, R139; log 7). -/
def freshStore (s : State) : Store := { cells := [], stamp := s.freeCount + 1 }

/-- RESET_N has gone low: every block holds its initial state, but for the layer table and the palette, which the
spec says do not change while RESET_N is low (R3, R157; log 9). -/
def assertReset (s : State) : State :=
  { State.reset with
    pending := s.pending
    resetN := false
    ports := portsAtReset s
    commit := { slots := s.commit.slots, batches := State.reset.commit.batches }
    store := freshStore s
    palette := s.palette
    freeCount := s.freeCount + 1
    arrivals := s.arrivals }

/-- RESET_ASSERT, with how long RESET_N stays low: a pulse shorter than 1 µs has no effect (R211). -/
def execResetAssert (ns : Nat) (s : State) : Outcome :=
  .next (if resetPulse ≤ ns ∧ s.resetN = true then assertReset s else s)

/-- RESET_N has gone high: every block holds its initial state. -/
def releaseReset (s : State) : State :=
  { State.reset with
    pending := s.pending
    ports := portsAtReset s
    store := freshStore s
    freeCount := s.freeCount + 1
    arrivals := s.arrivals }

/-- RESET_RELEASE; RESET_N that is already high does not rise (log 2). -/
def execResetRelease (s : State) : Outcome := .next (if s.resetN then s else releaseReset s)

end Sys2Proof.Machine
end

