-- ==== Sys2Proof/Machine/Dispatch.lean ====
section
/-! DEFINITION. The meaning of every command: one arm for each row of the table. -/

namespace Sys2Proof.Machine

/-- The effect of a command on everything but the queue of waiting commands. -/
def exec (i : Instr) (s : State) : Host.Outcome State Fault Refusal :=
  match i with
  | .resetAssert lowNanoseconds => Sys2Proof.Machine.execResetAssert lowNanoseconds s
  | .resetRelease => Sys2Proof.Machine.execResetRelease s
  | .transactionStart p => Sys2Proof.Machine.execTransactionStart p s
  | .transactionEnd p inbound strayBits => Sys2Proof.Machine.execTransactionEnd p inbound strayBits s
  | .unknownCode p => Sys2Proof.Machine.execUnknownCode p s
  | .status p => Sys2Proof.Machine.execStatus p s
  | .join p => Sys2Proof.Machine.execJoin p s
  | .leave p => Sys2Proof.Machine.execLeave p s
  | .getPlan p => Sys2Proof.Machine.execGetPlan p s
  | .propose p => Sys2Proof.Machine.execPropose p s
  | .vote p => Sys2Proof.Machine.execVote p s
  | .claimLayer p => Sys2Proof.Machine.execClaimLayer p s
  | .getLayer p => Sys2Proof.Machine.execGetLayer p s
  | .setView p => Sys2Proof.Machine.execSetView p s
  | .setLayer p => Sys2Proof.Machine.execSetLayer p s
  | .move p => Sys2Proof.Machine.execMove p s
  | .showLayer p => Sys2Proof.Machine.execShowLayer p s
  | .hideLayer p => Sys2Proof.Machine.execHideLayer p s
  | .setDepth p => Sys2Proof.Machine.execSetDepth p s
  | .setSource p => Sys2Proof.Machine.execSetSource p s
  | .setColours p => Sys2Proof.Machine.execSetColours p s
  | .setClip p => Sys2Proof.Machine.execSetClip p s
  | .setPaletteBase p => Sys2Proof.Machine.execSetPaletteBase p s
  | .publishPalette p => Sys2Proof.Machine.execPublishPalette p s
  | .retireLayer p => Sys2Proof.Machine.execRetireLayer p s
  | .closeBatch p => Sys2Proof.Machine.execCloseBatch p s
  | .abandonBatch p => Sys2Proof.Machine.execAbandonBatch p s
  | .moveNow p => Sys2Proof.Machine.execMoveNow p s
  | .defineWindow p => Sys2Proof.Machine.execDefineWindow p s
  | .changeWindow p => Sys2Proof.Machine.execChangeWindow p s
  | .arm p => Sys2Proof.Machine.execArm p s
  | .disarm p => Sys2Proof.Machine.execDisarm p s
  | .freeWindow p => Sys2Proof.Machine.execFreeWindow p s
  | .getWindow p => Sys2Proof.Machine.execGetWindow p s
  | .allocExtent p => Sys2Proof.Machine.execAllocExtent p s
  | .freeExtent p => Sys2Proof.Machine.execFreeExtent p s
  | .grant p => Sys2Proof.Machine.execGrant p s
  | .revoke p => Sys2Proof.Machine.execRevoke p s
  | .mend p => Sys2Proof.Machine.execMend p s
  | .getExtent p => Sys2Proof.Machine.execGetExtent p s
  | .seek p => Sys2Proof.Machine.execSeek p s
  | .write p => Sys2Proof.Machine.execWrite p s
  | .read p => Sys2Proof.Machine.execRead p s
  | .update p => Sys2Proof.Machine.execUpdate p s
  | .claimPalette p => Sys2Proof.Machine.execClaimPalette p s
  | .releasePalette p => Sys2Proof.Machine.execReleasePalette p s
  | .paletteWrite p => Sys2Proof.Machine.execPaletteWrite p s
  | .paletteRead p => Sys2Proof.Machine.execPaletteRead p s
  | .leaseExpiry p => Sys2Proof.Machine.execLeaseExpiry p s
  | .voteTimeout => Sys2Proof.Machine.execVoteTimeout s
  | .lineZeroFetch => Sys2Proof.Machine.execLineZeroFetch s
  | .frameStart => Sys2Proof.Machine.execFrameStart s
  | .lineStart => Sys2Proof.Machine.execLineStart s
  | .blankStart => Sys2Proof.Machine.execBlankStart s
  | .tick b => Sys2Proof.Machine.execTick b s
  | .accessCompletion b => Sys2Proof.Machine.execAccessCompletion b s

end Sys2Proof.Machine
end

