-- ==== Sys2Proof/Machine/Idle.lean ====
section
/-! DEFINITION. What passes while no command waits: one pixel time (R28; log 3). -/

namespace Sys2Proof.Machine

/-- The last pixel time of a line (R28). -/
def ScanEngine.lastPixelTime (c : ScanEngine) : Nat := c.timing.width + c.timing.hblank - 1

/-- The next blank line begins with no event: every one but the first, which the blank start begins, and the last,
which LINE_ZERO_FETCH begins (R29, R36). -/
def ScanEngine.quietLineEnd (c : ScanEngine) : Bool :=
  decide (c.phase = .blank) && decide (c.lineNo + 2 < c.timing.vblank)

/-- The position one pixel time on. Where the next pixel time is the point of an event, the position waits for the
event to be commanded (R28; log 3). -/
def ScanEngine.nextPixel (c : ScanEngine) : ScanEngine :=
  if c.pixelTime < c.lastPixelTime then { c with pixelTime := c.pixelTime + 1 }
  else if c.quietLineEnd then { c with lineNo := c.lineNo + 1, pixelTime := 0 }
  else c

/-- The part with no command waiting: a pixel time passes, except while RESET_N is low (R42; log 3). -/
def idle (s : State) : State := if s.resetN then { s with scan := s.scan.nextPixel } else s

end Sys2Proof.Machine
end

