-- ==== Sys2Proof/Machine/Pins.lean ====
section
/-! DEFINITION. The levels of the output pins, as functions of the state (R30, R42, R191, R204, R206, R211). -/

namespace Sys2Proof.Machine

/-- The panel outputs during one pixel time. `clock` says whether PCLK runs. -/
structure PanelPins where
  clock : Bool
  pr : Byte
  pg : Byte
  pb : Byte
  de : Bool
  hsync : Bool
  vsync : Bool
  deriving DecidableEq, Repr

/-- The pixel time carries an active pixel (R28). -/
def activePixel (c : ScanEngine) : Bool := decide (c.phase = .active) && decide (c.pixelTime < c.timing.width)

/-- HSYNC is high outside pixel times width + 8 to width + 23 (R30). -/
def hsyncHigh (c : ScanEngine) : Bool :=
  !(decide (c.timing.width + 8 ≤ c.pixelTime) && decide (c.pixelTime ≤ c.timing.width + 23))

/-- VSYNC is high outside blank lines 1 and 2 (R30). -/
def vsyncHigh (c : ScanEngine) : Bool :=
  !(decide (c.phase = .blank) && (decide (c.lineNo = 1) || decide (c.lineNo = 2)))

/-- The panel outputs at the position of the scan engine (R30), and while RESET_N is low (R42). -/
def panelPins (s : State) : PanelPins :=
  if s.resetN then
    let c := s.scan
    if activePixel c ∧ c.output = .lit then
      let v := c.line.getD c.pixelTime 0
      { clock := true, pr := v.extractLsb' 16 8, pg := v.extractLsb' 8 8, pb := v.extractLsb' 0 8, de := true,
        hsync := hsyncHigh c, vsync := vsyncHigh c }
    else
      { clock := true, pr := 0, pg := 0, pb := 0, de := false, hsync := hsyncHigh c, vsync := vsyncHigh c }
  else { clock := false, pr := 0, pg := 0, pb := 0, de := false, hsync := true, vsync := true }

/-- Outbound byte `i` of the transaction: 00h after the last byte of the frame (R191). -/
def Transaction.byteAt (t : Transaction) (i : Nat) : Byte := t.bytes.getD i 0

/-- The level of SDO while bit `k` of outbound byte `i` is on the line, most significant bit first; high outside a
transaction and during RESET_N (R191, R206, R211; log 29). -/
def sdoHigh (s : State) (p : PortId) (i k : Nat) : Bool :=
  let c := s.ports.get p
  if s.resetN && !c.selHigh then
    match c.transaction with
    | some t => (t.byteAt i).getLsbD (7 - k)
    | none => Config.unstatedSdo
  else true

/-- The level of ATN_n of a port (R204, R206, R211). -/
def atnPin (s : State) (p : PortId) : Bool := atnHigh s.resetN (s.ports.get p)

end Sys2Proof.Machine
end

