-- ==== Sys2Proof/Safety.lean ====
section
/-! DEFINITION. What statements about the part are said in: when a command is due, what an answer changes, and the
invariants the part keeps. -/

namespace Sys2Proof.Machine

/-! ### When a command has its effect -/

/-- RESET_N is high and no expiry or time-out is still to be taken (log 2, log 4). -/
def ready (s : State) : Bool := s.resetN && s.noneDue

/-- The request stands at the head of the port's queue and can begin to execute: none is executing and the port's
transfer unit has no transfer in progress (R196). -/
def asks (s : State) (p : PortId) (r : Request) : Bool :=
  ready s && !(s.ports.get p).executing && !(s.ports.get p).discard && (s.transfer.get p).job.isNone &&
    decide ((s.ports.get p).requests.head? = some r)

/-- A JOINED port's request with this code and a payload of this length is ready to execute (R169, R208). -/
def asksFor (s : State) (p : PortId) (r : Request) (code : Byte) (length : Nat) : Bool :=
  asks s p r && s.joined p && decide (r.code = code) && decide (r.payload.length = length)

/-- The state after nothing but the answer to the request at the head of a port's queue: the request leaves the queue
and its response is the last frame outbound (R196, R198). One entry of `arrivals` is used up (log 5). -/
def State.answered (s : State) (p : PortId) (tag : Byte) (result : Result) (payload : List Byte) : State :=
  { s with
    ports := s.ports.set p
      { s.ports.get p with requests := (s.ports.get p).requests.tail,
                           outbound := (s.ports.get p).outbound ++ [.response tag result payload] }
    arrivals := s.arrivals.tail }


/-! ### The request rows (R208) -/

/-- The request a row of the table executes: its port, its code and, for a Stage row, its edit kind. The other rows
are not requests with a code of their own. -/
def requestOf : Instr → Option (PortId × Byte × Option Byte)
  | .status p => some (p, 0x01, none)
  | .join p => some (p, 0x02, none)
  | .leave p => some (p, 0x03, none)
  | .getPlan p => some (p, 0x04, none)
  | .propose p => some (p, 0x05, none)
  | .vote p => some (p, 0x06, none)
  | .claimLayer p => some (p, 0x08, none)
  | .getLayer p => some (p, 0x09, none)
  | .setView p => some (p, 0x0A, none)
  | .setLayer p => some (p, 0x0B, some 0x01)
  | .move p => some (p, 0x0B, some 0x02)
  | .showLayer p => some (p, 0x0B, some 0x03)
  | .hideLayer p => some (p, 0x0B, some 0x04)
  | .setDepth p => some (p, 0x0B, some 0x05)
  | .setSource p => some (p, 0x0B, some 0x06)
  | .setColours p => some (p, 0x0B, some 0x07)
  | .setClip p => some (p, 0x0B, some 0x08)
  | .setPaletteBase p => some (p, 0x0B, some 0x09)
  | .publishPalette p => some (p, 0x0B, some 0x0A)
  | .retireLayer p => some (p, 0x0B, some 0x0B)
  | .closeBatch p => some (p, 0x0C, none)
  | .abandonBatch p => some (p, 0x0D, none)
  | .moveNow p => some (p, 0x0E, none)
  | .defineWindow p => some (p, 0x10, none)
  | .changeWindow p => some (p, 0x11, none)
  | .arm p => some (p, 0x12, none)
  | .disarm p => some (p, 0x13, none)
  | .freeWindow p => some (p, 0x14, none)
  | .getWindow p => some (p, 0x15, none)
  | .allocExtent p => some (p, 0x18, none)
  | .freeExtent p => some (p, 0x19, none)
  | .grant p => some (p, 0x1A, none)
  | .revoke p => some (p, 0x1B, none)
  | .mend p => some (p, 0x1C, none)
  | .getExtent p => some (p, 0x1D, none)
  | .seek p => some (p, 0x20, none)
  | .write p => some (p, 0x21, none)
  | .read p => some (p, 0x22, none)
  | .update p => some (p, 0x23, none)
  | .claimPalette p => some (p, 0x28, none)
  | .releasePalette p => some (p, 0x29, none)
  | .paletteWrite p => some (p, 0x2A, none)
  | .paletteRead p => some (p, 0x2B, none)
  | .resetAssert _ => none
  | .resetRelease => none
  | .transactionStart _ => none
  | .transactionEnd _ _ _ => none
  | .unknownCode _ => none
  | .leaseExpiry _ => none
  | .voteTimeout => none
  | .lineZeroFetch => none
  | .frameStart => none
  | .lineStart => none
  | .blankStart => none
  | .tick _ => none
  | .accessCompletion _ => none

/-- The eleven Stage rows with their kind bytes (R208). -/
def stageRows : List (Byte × (PortId → Instr)) :=
  [(0x01, .setLayer), (0x02, .move), (0x03, .showLayer), (0x04, .hideLayer), (0x05, .setDepth), (0x06, .setSource),
   (0x07, .setColours), (0x08, .setClip), (0x09, .setPaletteBase), (0x0A, .publishPalette), (0x0B, .retireLayer)]

/-- The payload lengths R208 permits for a code. -/
def permittedLength (code : Byte) (n : Nat) : Bool :=
  match code.toNat with
  | 0x02 | 0x18 | 0x1A | 0x1B | 0x28 | 0x29 => decide (n = 2)
  | 0x01 | 0x03 | 0x08 | 0x0D => decide (n = 0)
  | 0x04 | 0x09 | 0x0A | 0x12 | 0x13 | 0x14 | 0x15 | 0x19 | 0x1C | 0x1D | 0x22 => decide (n = 1)
  | 0x05 => decide (n = 44)
  | 0x06 => decide (n = 3)
  | 0x0B => decide (n ∈ [2, 3, 4, 6, 9, 11, 19, 48])
  | 0x0C => decide (n = 0) || decide (n = 2)
  | 0x0E => decide (n = 5)
  | 0x10 => decide (n = 13)
  | 0x11 => decide (n = 14)
  | 0x20 | 0x2B => decide (n = 4)
  | 0x21 => decide (1 ≤ n) && decide (n ≤ 64)
  | 0x23 => decide (n = 5)
  | 0x2A => decide (5 ≤ n) && decide (n ≤ 50) && decide ((n - 2) % 3 = 0)
  | _ => false

/-! ### Ranges of the records (R47, R76, R179) -/

def inRange (lo hi v : Nat) : Bool := decide (lo ≤ v) && decide (v ≤ hi)

/-- The coordinate is one of a layer position (R47). -/
def positionInRange (v : Int) : Bool := decide (-4096 ≤ v) && decide (v ≤ 4095)

def Source.inRange (o : Source) : Bool := Machine.inRange 0 2097151 o.offset && Machine.inRange 1 4096 o.stride

def Clip.inRange (c : Clip) : Bool :=
  decide (c.x0 ≤ c.x1) && decide (c.x1 ≤ 4095) && decide (c.y0 ≤ c.y1) && decide (c.y1 ≤ 4095)

/-- The descriptor passes the form check of Set Layer (R47). -/
def Descriptor.inRange (d : Descriptor) : Bool :=
  Machine.inRange 1 1024 d.width && Machine.inRange 1 1024 d.height && positionInRange d.x && positionInRange d.y &&
    decide (d.ax < d.width) && decide (d.ay < d.height) && d.source.all Source.inRange && d.clip.all Clip.inRange

/-- The five timing values are in their ranges (R27). -/
def Timing.inRange (t : Timing) : Bool :=
  Machine.inRange 64 1024 t.width && Machine.inRange 64 768 t.height && Machine.inRange 32 1023 t.hblank &&
    Machine.inRange 4 255 t.vblank && Machine.inRange 1 16 t.divider

/-- One port's share of a plan is in range (R179). -/
def Quotas.inRange (q : Quotas) : Bool :=
  Machine.inRange 0 16 q.layers && Machine.inRange 0 32 q.extents && Machine.inRange 0 4096 q.rows &&
    Machine.inRange 0 64 q.blocks && Machine.inRange 0 8 q.windows &&
    q.band.all fun b => decide (b.low ≤ b.high) && decide (b.high ≤ 63)

/-- Every field of the plan is in its range (R179). -/
def Plan.inRange (k : Plan) : Bool := (allPorts.all fun p => (k.quotas.get p).inRange) && k.timing.inRange

/-- The window settings are in range (R76). -/
def WinSettings.inRange (w : WinSettings) : Bool :=
  Machine.inRange 0 1023 w.x && Machine.inRange 0 767 w.y && Machine.inRange 1 1024 w.w &&
    Machine.inRange 1 768 w.h && Machine.inRange 1 15 w.threshold

/-! ### Teardown (R73, R97, R115, R154, R175, R187) -/

/-- What the start of a port's teardown leaves in the session record, the batch, the layer table, the windows, the
cursor, the plan and the extents; `cause` is LEAVE or EXPIRY. -/
def teardownStarted (s t : State) (p : PortId) (cause : TeardownCause) : Prop :=
  t.session.records.get p =
    { s.session.records.get p with state := .draining, counter := 0, cause := some cause } ∧
  (∀ q, q ≠ p → t.session.records.get q = s.session.records.get q) ∧
  t.session.plan = s.session.plan ∧
  (t.session.planState = match s.session.planState.proposal? with
    | some q => if q.voters.get p then .steady else s.session.planState
    | none => s.session.planState) ∧
  t.commit.batches.get p = { state := .empty, edits := [], target := none } ∧
  (∀ q, q ≠ p → t.commit.batches.get q = s.commit.batches.get q) ∧
  (∀ l, t.slot l = match s.slot l with
    | .held .owned q d => .held (if q = p then .retiring else .owned) q d
    | r => r) ∧
  (∀ n, t.window n = if windowOwnedBy p (s.window n) then none else s.window n) ∧
  (t.transfer.get p).cursor = none ∧ (t.transfer.get p).buffer = .empty ∧
  (∀ h e, s.extent h = some e →
    (e.owner ≠ some p → t.extent h = some e) ∧
    (e.owner = some p → (∀ q, e.counts.get q = 0) → t.extent h = none) ∧
    (e.owner = some p → (∃ q, e.counts.get q ≠ 0) →
      t.extent h = some { e with
        owner := none
        grants := PerPort.tab fun q =>
          if q = p then (if e.counts.get q = 0 then .none else .withdrawing)
          else if e.grants.get q = .granted then (if e.counts.get q = 0 then .none else .withdrawing)
          else e.grants.get q })) ∧
  (∀ h, s.extent h = none → t.extent h = none) ∧
  t = { s with
    session := t.session, commit := t.commit, check := { s.check with windows := t.check.windows }
    extents := t.extents, transfer := t.transfer, banks := t.banks, ports := t.ports
    scan := { s.scan with fetch := t.scan.fetch }, arrivals := s.arrivals.tail }

/-! ### What a step sends (R200, R201; log 5, log 6) -/

/-- The messages of one origin, in the order sent. -/
def Act.sent (a : Act) (o : Origin) : List Msg := (a.out.filter fun m => decide (m.1 = o)).map Prod.snd

/-- What the start of a port's teardown sends to the other ports: PEER_LEFT to each JOINED one; when the port is a voter
of the proposal, PLAN_FAILED to each other voter; for each extent of the port, in ascending handle order, GRANT_ENDED or
GRANT_WITHDRAWN to each GRANTED grantee (R115, R175, R187). Besides these it sends responses alone. -/
def departureSends (s : State) (p : PortId) (a : Act) : Prop :=
  a.sent .session =
    (allPorts.filter fun q => decide (q ≠ p) && s.joined q).map (fun q => Msg.event q (.peerLeft p)) ∧
  a.sent .plan = (match s.session.planState.proposal? with
    | some k =>
      if k.voters.get p then
        (allPorts.filter fun v => decide (v ≠ p) && k.voters.get v).map fun v =>
          Msg.event v (.planFailed .voterLeft p)
      else []
    | none => []) ∧
  a.sent .extents = ((List.finRange 32).flatMap fun h => match s.extent h with
    | some e =>
      if e.owner = some p then
        (allPorts.filter fun q => decide (q ≠ p) && decide (e.grants.get q = .granted)).map fun q =>
          Msg.event q (if e.counts.get q = 0 then .grantEnded h p else .grantWithdrawn h p)
      else []
    | none => []) ∧
  a.sent .commit = [] ∧ a.sent .check = [] ∧ a.sent .scan = []

/-- The answers sent to a port. -/
def answersTo (q : PortId) (a : Act) : List Msg :=
  (a.sent .response).filter fun m => match m with
    | .respond v _ _ => decide (v = q)
    | _ => false

/-- What the departure of port `p` takes of an extent from port `q`, with the answer to a Read of `q` in it: its GRANTED
grant ends at once while it draws nothing from the extent, and an extent no port draws from is freed (R108, R111,
R115, R148). -/
def takenAtDeparture (s : State) (p q : PortId) (h : Fin 32) : Option Result :=
  match s.extent h with
  | none => none
  | some e =>
    if e.owner ≠ some p then none
    else if q ≠ p ∧ e.grants.get q = .granted ∧ e.counts.get q = 0 then some .notGranted
    else if ∀ v ∈ allPorts, e.counts.get v = 0 then some .noObject
    else none

/-- The answer to a Read of port `q` in progress that the departure of port `p` ends. -/
def departureAnswer (s : State) (p q : PortId) : Option Msg :=
  (s.transfer.get q).job.bind fun j =>
    if j.isRead then (takenAtDeparture s p q j.handle).map fun v => .respond q v [] else none

/-- The transfer units after the departure of port `p`: its own has neither cursor nor buffer, and its transfer goes on
detached; another has lost what it held in an extent taken from it. A Read of an extent taken is ended. A Read that waited
for a buffer that is emptied presents its own accesses. No access in flight of a Read ended or a fetch given up is wanted
(R131, R141, R147, R148, R152, R154). -/
def unitsAtDeparture (s u : State) (p : PortId) : Prop :=
  ∀ q : PortId,
    let x := s.transfer.get q
    let y := u.transfer.get q
    let taken := fun h => (takenAtDeparture s p q h).isSome
    let emptied := decide (q = p) || x.buffer.handle?.any taken
    y.cursor = (if q = p then none else x.cursor.filter fun c => !taken c.handle) ∧
    y.buffer = (if emptied then .empty else x.buffer) ∧
    (x.job = none → y.job = none) ∧
    (∀ j, x.job = some j →
      let goesOn := fun k : Job => { k with detached := j.detached || decide (q = p) }
      if j.isRead && taken j.handle then y.job = none
      else
        ((∀ n, j.kind ≠ .readBuffered n) ∨ emptied = false → y.job = some (goesOn j)) ∧
        ∀ n e, j.kind = .readBuffered n → emptied = true → s.extent j.handle = some e →
          y.job = some (goesOn { j with kind := .read n, parts := readParts e.firstRow j.offset n })) ∧
    ∀ b a, (s.banks.get b).inFlight = some a → a.requester = .transfer q →
      (u.banks.get b).inFlight = some
        (if (x.buffer.isFetching && emptied) || (departureAnswer s p q).isSome then { a with wanted := false } else a)

/-! ### Transfers (R131, R150, R152) -/

/-- The banks after the buffer of a port is emptied: where it was FETCHING, the port's accesses in flight are no longer
wanted; else as they were. -/
def banksGivenUp (s : State) (p : PortId) : PerBank Bank :=
  match (s.transfer.get p).buffer with
  | .fetching _ _ _ _ =>
    PerBank.tab fun b =>
      { s.banks.get b with
        inFlight := (s.banks.get b).inFlight.map fun a =>
          if a.requester = .transfer p then { a with wanted := false } else a }
  | _ => s.banks

/-- A Read of the extent is in progress at the port. -/
def readInProgress (s : State) (p : PortId) (h : Fin 32) : Bool :=
  (s.transfer.get p).job.any fun j => j.isRead && decide (j.handle = h)

/-- The port's buffer is FETCHING from the extent. -/
def fetchesFrom (s : State) (p : PortId) (h : Fin 32) : Bool :=
  (s.transfer.get p).buffer.isFetching && decide ((s.transfer.get p).buffer.handle? = some h)

/-- What a transfer unit loses with an extent, freed or no longer granted to its port: a cursor in it is absent, a buffer
from it gone, a Read of it given up, and neither the fetch's nor the Read's accesses in flight are wanted; a Write or
Update goes on (R131, R141, R148, R152). -/
def unitLoses (s t : State) (p : PortId) (h : Fin 32) : Prop :=
  (t.transfer.get p).cursor = ((s.transfer.get p).cursor.filter fun c => decide (c.handle ≠ h)) ∧
  (t.transfer.get p).buffer.handle? ≠ some h ∧
  (readInProgress s p h = true → (t.transfer.get p).job = none) ∧
  (∀ j, (s.transfer.get p).job = some j → j.isRead = false →
    (t.transfer.get p).job.map (fun k => { k with parts := j.parts }) = some j) ∧
  ∀ b a, (s.banks.get b).inFlight = some a → a.requester = .transfer p →
    (t.banks.get b).inFlight =
      some (if readInProgress s p h || fetchesFrom s p h then { a with wanted := false } else a)

/-- What a port is sent with that loss: the event, if there is one and it takes events, and the answer to a Read in
progress, which may arrive in either order (log 5). -/
def portToldOfLoss (s t : State) (p : PortId) (h : Fin 32) (result : Result) (event : Option Event) : Prop :=
  let told := fun c : PortController => match event with
    | some e => if (s.session.records.get p).takesEvents then c.takeEvent e else c
    | none => c
  (readInProgress s p h = false → t.ports.get p = told (s.ports.get p)) ∧
  (readInProgress s p h = true → ∀ r, (s.ports.get p).requests.head? = some r →
    let answered := fun c : PortController =>
      { c with
        requests := c.requests.tail, executing := false, discard := false
        outbound := if c.discard then c.outbound else c.outbound ++ [.response r.tag result []] }
    t.ports.get p = told (answered (s.ports.get p)) ∨ t.ports.get p = answered (told (s.ports.get p)))

/-- The buffer after a Read is answered that leaves the cursor at `offset`: EMPTY at the end of the extent or when the
extent is not READY, else FETCHING of the next bytes, 64 at most. -/
def readAheadFrom (h : Fin 32) (e : Extent) (offset : Nat) : ReadAhead :=
  let n := min 64 (e.rows * 512 - offset)
  if n = 0 ∨ e.state ≠ .ready then .empty else .fetching h offset n (readParts e.firstRow offset n)

/-! ### Lines (R34, R35, R38, R39) -/

/-- The bits of a pixel in each format. -/
def pixelBits : Format → Nat
  | .fill => 0
  | .marker2 => 2
  | .index4 => 4
  | .index8 => 8
  | .direct16 => 16

/-- The line records are those of the layer table for a line of a panel of this width. -/
def recordsOf (s : State) (width line : Nat) (records : Vector (Option LineRecord) 16) : Prop :=
  ∀ l : Fin 16, records[l] = match s.slot l with
    | .free => none
    | .held _ _ d => some { live := d, span := if d.visible then layerSpan d width line else none }

/-- An access of the slot's fetch has not completed. -/
def late (fetch : List FetchPart) (l : Fin 16) : Bool := fetch.any fun f => decide (f.slot = l) && !f.part.finished

/-- The layers of a line: each slot whose record shows it drawn, in fallback when its frame fallback mark is set or its
fetch is late, with the bytes of its completed accesses. -/
def lineLayers (records : Vector (Option LineRecord) 16) (fetch : List FetchPart) (fallback : Fin 16 → Bool) :
    List DrawnLayer :=
  (List.finRange 16).filterMap fun l => records[l].bind fun r => r.span.map fun k =>
    { desc := r.live, span := k, fallback := fallback l,
      bytes := (fetch.filter fun f => decide (f.slot = l)).flatMap fun f => f.part.bytes }

/-- The banks after a line start: an access of the line's fetch still in flight is no longer wanted. -/
def banksAfterLine (s : State) : PerBank Bank :=
  PerBank.tab fun b =>
    if s.scan.fetch.any fun f => decide (f.part.status = .granted) && decide (bankOfRow f.part.row = b) then
      { s.banks.get b with
        inFlight := (s.banks.get b).inFlight.map fun a =>
          if a.requester = .scan then { a with wanted := false } else a }
    else s.banks.get b

/-- The UNDERRUN events that a port takes for slots, in ascending order, that it owns. -/
def takeUnderruns (s : State) (p : PortId) (frame : Half) (slots : Fin 16 → Bool) : PortController :=
  (List.finRange 16).foldl (fun c l => match s.slot l with
    | .held _ owner _ =>
      if slots l && decide (owner = p) && (s.session.records.get p).takesEvents then
        c.takeEvent (.underrun l frame)
      else c
    | .free => c) (s.ports.get p)

/-- An underrun notice for the line meets the window: a slot of these, as its line record shows it drawn, covers one of
the window's columns, and the window's rows include the line (R92). -/
def underrunMeets (s : State) (line : Nat) (slots : Fin 16 → Bool) (w : WinSettings) : Bool :=
  decide (w.y ≤ line) && decide (line < w.y + w.h) && (List.finRange 16).any fun l =>
    slots l && match s.scan.records[l] with
      | some { span := some k, .. } => decide (w.x ≤ k.last) && decide (k.first < w.x + w.w)
      | _ => false

/-- The signature register of a window after the pixels of a line: red, green and blue of each of its columns in turn
enter the check register (R87, R88). -/
def signLine (w : WinSettings) (pixels : List Color) (register : Color) : Color :=
  ((pixels.drop w.x).take w.w).foldl (fun g c =>
    crcByte 0x7A4C35#24 (crcByte 0x7A4C35#24 (crcByte 0x7A4C35#24 g (c.extractLsb' 16 8)) (c.extractLsb' 8 8))
      (c.extractLsb' 0 8)) register

/-! ### Invariants -/

/-- The store's cells have their canonical form. -/
def storeInv (s : State) : Bool := Memory.wf s.store.cells

/-- A port's requests and responses never pass the credit of 4, its queued events never pass 12 (R195, R199). -/
def queueInv (s : State) : Bool :=
  allPorts.all fun p =>
    decide ((s.ports.get p).requests.length + (s.ports.get p).outbound.countP Frame.isResponse ≤ 4) &&
      decide ((s.ports.get p).outbound.countP Frame.isEvent ≤ 12)

/-- A port has a transfer in progress exactly while its request is executing; that request is still in its queue, and
only its response can be one to discard (R176, R196). -/
def jobInv (s : State) : Bool :=
  allPorts.all fun p =>
    decide ((s.ports.get p).executing = (s.transfer.get p).job.isSome) &&
      (!(s.ports.get p).executing || decide ((s.ports.get p).requests ≠ [])) &&
      (!(s.ports.get p).discard || (s.ports.get p).executing)

/-- An owed list holds at most 8 rows, none twice and none whose fresh flag is set, and the refresh request names its
oldest row (R134, R137). -/
def refreshBankInv (r : RefreshBank) : Bool :=
  decide (r.owed.length ≤ 8) && decide r.owed.Nodup && (r.owed.all fun x => !r.fresh.getLsb x) &&
    decide (r.request = r.owed.head?)

/-- Every bank's refresh state is as R134 and R137 say. -/
def refreshInv (s : State) : Bool := allBanks.all fun b => refreshBankInv (s.refresh.get b)

/-- A batch buffer is one of the three of R44: EMPTY without edits and target, OPEN with 1 to 32 edits and no target,
CLOSED with 1 to 32 edits. -/
def Batch.inv (b : Batch) : Bool :=
  match b.state with
  | .empty => b.edits.isEmpty && b.target.isNone
  | .opened => decide (1 ≤ b.edits.length) && decide (b.edits.length ≤ 32) && b.target.isNone
  | .closed => decide (1 ≤ b.edits.length) && decide (b.edits.length ≤ 32)

/-- Every port's batch buffer is one of those of R44. -/
def batchInv (s : State) : Bool := allPorts.all fun p => (s.commit.batches.get p).inv

/-- A free palette block has shadow entries all 000000h and its dirty flag clear (R157). -/
def paletteInv (s : State) : Bool :=
  (List.finRange 64).all fun b =>
    decide ((s.block b).owner ≠ none) ||
      (decide ((s.block b).shadow = Vector.replicate 16 0) && !(s.block b).dirty)

/-- The rows of two extents are apart. -/
def extentsApart (e f : Extent) : Bool :=
  decide (e.firstRow + e.rows ≤ f.firstRow) || decide (f.firstRow + f.rows ≤ e.firstRow)

/-- Every extent holds at least one row and lies in the store, and no row is in two extents (R99, R104). -/
def extentsInv (s : State) : Bool :=
  (List.finRange 32).all fun h => match s.extent h with
    | none => true
    | some e =>
      decide (1 ≤ e.rows) && decide (e.firstRow + e.rows ≤ storeRows) &&
        (List.finRange 32).all fun k => match s.extent k with
          | none => true
          | some f => decide (h = k) || extentsApart e f

/-- While RESET_N is high, each reference count is the number of the port's OWNED or RETIRING slots whose live source
names the extent, and no live source names a handle that is not allocated (R67, R113). -/
def countsInv (s : State) : Bool :=
  !s.resetN || (List.finRange 32).all fun h => allPorts.all fun p =>
    decide (drawing s.commit.slots p h = (s.extent h).elim 0 fun e => e.counts.get p)

/-- The session state a slot's owner has: JOINED while the slot is OWNED, DRAINING while it is RETIRING (R73, R74). -/
def ownerState : HeldState → SessionState
  | .owned => .joined
  | .retiring => .draining

/-- The slot's depth lies in its owner's band, and its owner's session is as the slot's state says (R10, R73). -/
def slotInv (s : State) (r : Slot) : Bool :=
  match r with
  | .free => true
  | .held state p d => inBand d.z.val (s.quotas p).band && decide (s.sessionState p = ownerState state)

/-- The two slots do not hold the same depth. -/
def depthsDiffer (a b : Slot) : Bool :=
  match a, b with
  | .held _ _ d, .held _ _ e => decide (d.z ≠ e.z)
  | _, _ => true

/-- While RESET_N is high, the OWNED and RETIRING slots hold pairwise distinct depths, each inside its owner's band in
the plan in force (R10); the plan in force and the plan proposed are valid (R180). -/
def slotsInv (s : State) : Bool :=
  !s.resetN ||
    ((List.finRange 16).all (fun l => slotInv s (s.slot l)) &&
      (List.finRange 16).all (fun l => (List.finRange 16).all fun m =>
        decide (l = m) || depthsDiffer (s.slot l) (s.slot m)) &&
      planValid s.session.plan && s.session.planState.proposal?.all fun q => planValid q.plan)

/-- The number of lines of a phase (R28). -/
def Timing.lines (t : Timing) : Phase → Nat
  | .active => t.height
  | .blank => t.vblank

/-- The timing in force is in range (R27), so is every field of the plan in force and of the plan proposed, quotas, bands
and timing (R179), and the position lies in the frame (R28). -/
def timingInv (s : State) : Bool :=
  s.scan.timing.inRange && s.session.plan.inRange &&
    (s.session.planState.proposal?.all fun q => q.plan.inRange) &&
    decide (s.scan.lineNo < s.scan.timing.lines s.scan.phase) &&
    decide (s.scan.pixelTime < s.scan.timing.width + s.scan.timing.hblank)

end Sys2Proof.Machine
end

