-- ==== Sys2Proof/Certificates/Slice0/Obligations.lean ====
section
/-! DEFINITION. The statements about the part, for the provers. -/

open Sys2Proof Sys2Proof.Machine

/-! ### One step -/

/-- A step with a command waiting executes the front command on the state with the queue's rest. -/
def Obligations.StepRunsFrontCommand : Prop :=
  ∀ (c : Instr) (rest : List Instr) (s : State),
    s.pending = c :: rest → step s = exec c { s with pending := rest }

/-- With no command waiting a pixel time passes, and the position waits where the next pixel time is the point of an
event. The model's choice (log 3). -/
def Obligations.IdleStepIsOnePixelTime : Prop :=
  ∀ s : State, s.pending = [] →
    (s.resetN = false → step s = .next s) ∧
    (s.resetN = true → s.scan.pixelTime + 1 < s.scan.timing.width + s.scan.timing.hblank →
      step s = .next { s with scan := { s.scan with pixelTime := s.scan.pixelTime + 1 } }) ∧
    (s.resetN = true → ¬(s.scan.pixelTime + 1 < s.scan.timing.width + s.scan.timing.hblank) →
      step s = .next (if s.scan.phase = .blank ∧ s.scan.lineNo + 2 < s.scan.timing.vblank then
        { s with scan := { s.scan with lineNo := s.scan.lineNo + 1, pixelTime := 0 } } else s))

/-- Every command of the table answers a next state, from every state, and leaves the waiting commands alone.
That a command whose event is not due answers a next state too is the model's choice (log 2). -/
def Obligations.EveryCommandAnswersNext : Prop :=
  ∀ (c : Instr) (s : State), ∃ t, exec c s = .next t ∧ t.pending = s.pending

/-! ### Reset -/

/-- What the spec says each block holds after RESET_N is released. -/
def Obligations.ResetState : Prop :=
  let s := State.reset
  (∀ l, s.slot l = .free) ∧
  (s.scan.timing = { width := 800, height := 480, hblank := 200, vblank := 20, divider := 2 } ∧
    s.scan.phase = .blank ∧ s.scan.lineNo = 0 ∧ s.scan.pixelTime = 0 ∧ s.scan.frameCounter = 0 ∧
    s.scan.output = .dark ∧ (∀ l : Fin 16, s.scan.records[l] = none) ∧ s.scan.fetch = [] ∧
    (∀ l : Fin 16, s.scan.marks[l] = false) ∧ ∀ l : Fin 16, s.scan.underruns[l] = false) ∧
  (∀ p, s.commit.batches.get p = { state := .empty, edits := [], target := none }) ∧
  ((∀ w, s.window w = none) ∧ s.check.moved = false) ∧
  ((∀ h, s.extent h = none) ∧ ∀ p, s.extents.clearLists.get p = []) ∧
  (∀ b, (s.banks.get b).inFlight = none ∧ (s.banks.get b).pointer = .h3 ∧
    (∀ p, (s.banks.get b).marks.get p = .clear) ∧ (s.refresh.get b).due = 0 ∧ (s.refresh.get b).owed = [] ∧
    (∀ x : Fin 1024, (s.refresh.get b).fresh.getLsb x = false) ∧ (s.refresh.get b).request = none ∧
    (s.refresh.get b).ticks = 0) ∧
  (∀ p, s.transfer.get p = { cursor := none, buffer := .empty, job := none }) ∧
  (∀ b, (s.block b).owner = none ∧ (∀ i : Fin 16, (s.block b).live[i] = 0 ∧ (s.block b).shadow[i] = 0) ∧
    (s.block b).dirty = false ∧ (s.block b).clearPending = false) ∧
  (∀ p, s.session.records.get p = { state := .absent, lease := 0, counter := 0, view := .live, cause := none }) ∧
  (s.session.planState = .steady ∧ s.session.plan.background = 0 ∧ s.session.plan.output = .dark ∧
    s.session.plan.timing = s.scan.timing ∧
    ∀ p, s.session.plan.quotas.get p =
      { layers := 4, extents := 8, rows := 1024, blocks := 16, windows := 2,
        band := some ⟨16 * portNumber p, 16 * portNumber p + 15⟩ }) ∧
  (∀ p, (s.ports.get p).requests = [] ∧ (s.ports.get p).outbound = [] ∧ credit (s.ports.get p) = 4 ∧
    (s.ports.get p).flags = { overrun := false, frameError := false, eventsDropped := false } ∧
    (s.ports.get p).transaction = none ∧ atnPin s p = true)

/-- The state after reset meets every invariant stated below. -/
def Obligations.ResetMeetsInvariants : Prop :=
  storeInv State.reset = true ∧ queueInv State.reset = true ∧ refreshInv State.reset = true ∧
  batchInv State.reset = true ∧ paletteInv State.reset = true ∧ extentsInv State.reset = true ∧
  countsInv State.reset = true ∧ jobInv State.reset = true ∧ slotsInv State.reset = true ∧ timingInv State.reset = true

/-- RESET_ASSERT: a low pulse shorter than 1 µs (1,000 ns) changes nothing; a longer one resets the blocks, with the
panel outputs as R42 says and ATN_n and SDO high at every port. The layer table and the palette stay as they are
(log 9), and so does each SEL_n. -/
def Obligations.ResetAssertResetsTheBlocks : Prop :=
  ∀ (ns : Nat) (s : State),
    (ns < 1000 → exec (.resetAssert ns) s = .next s) ∧
    (1000 ≤ ns → s.resetN = true → ∃ t, exec (.resetAssert ns) s = .next t ∧ t.resetN = false ∧
      panelPins t = { clock := false, pr := 0, pg := 0, pb := 0, de := false, hsync := true, vsync := true } ∧
      (∀ p i k, atnPin t p = true ∧ sdoHigh t p i k = true) ∧
      (∀ p, t.ports.get p = { State.reset.ports.get p with selHigh := (s.ports.get p).selHigh }) ∧
      t.session = State.reset.session ∧ t.commit.batches = State.reset.commit.batches ∧
      t.scan = State.reset.scan ∧ t.check = State.reset.check ∧ t.extents = State.reset.extents ∧
      t.banks = State.reset.banks ∧ t.refresh = State.reset.refresh ∧ t.transfer = State.reset.transfer ∧
      t.store.cells = [] ∧ t.commit.slots = s.commit.slots ∧ t.palette = s.palette)

/-- RESET_RELEASE while RESET_N is low leaves every block as after reset, each SEL_n at its level, and the whole store
with contents that nothing says anything about: no cell, and free values of a new occasion (log 7).
The contents are lost already at RESET_ASSERT (log 9). -/
def Obligations.ResetReleaseGivesTheResetState : Prop :=
  ∀ s : State, s.resetN = false →
    exec .resetRelease s = .next
      { State.reset with
        pending := s.pending
        ports := PerPort.tab fun p => { State.reset.ports.get p with selHigh := (s.ports.get p).selHigh }
        store := { cells := [], stamp := s.freeCount + 1 }
        freeCount := s.freeCount + 1
        arrivals := s.arrivals }

/-- While RESET_N is low no command but RESET_RELEASE has an effect; of a transaction start or end only the level of
SEL_n changes.
That a command then changes nothing is the model's choice (log 2). -/
def Obligations.NothingHappensWhileResetIsLow : Prop :=
  ∀ (c : Instr) (s : State), s.resetN = false →
    match c with
    | .resetRelease => True
    | .transactionStart p =>
      exec c s = .next { s with ports := s.ports.set p { s.ports.get p with selHigh := false } }
    | .transactionEnd p _ _ =>
      exec c s = .next { s with ports := s.ports.set p { s.ports.get p with selHigh := true } }
    | _ => exec c s = .next s

/-! ### The host link -/

/-- TRANSACTION_START fixes the head of the outbound queue, or an IDLE frame, and forms its bytes: the status byte as it
stands, the frame's fields, and the CRC-8 of all of them. Only the port's select level and transaction change. The bits
of the status byte: MORE, OVERRUN, FRAME_ERROR, EVENTS_DROPPED, the session state, VOTING, and bit 0 reserved; MORE is
set when a frame stands behind the head of the queue. -/
def Obligations.TransactionStartFixesTheFrame : Prop :=
  (∀ (p : PortId) (s : State), ready s = true → (s.ports.get p).selHigh = true →
     let c := s.ports.get p
     let status := statusByte c (s.sessionState p) (voteDue s.session.planState p)
     let body := match c.outbound with
       | [] => [0, 0, 0, 0]
       | .response tag result payload :: _ => [1, tag, resultCode result, byteOf payload.length] ++ payload
       | .event e n :: _ =>
         [2, eventCode e, byteOf n, byteOf (eventSubject e ++ eventFields e).length] ++
           (eventSubject e ++ eventFields e)
     exec (.transactionStart p) s = .next
       { s with ports := s.ports.set p { c with
           selHigh := false
           transaction := some
             { fixed := if c.outbound = [] then .idle else .head
               bytes := status :: body ++ [crc8 (status :: body)]
               shown := c.flags
               since := { overrun := false, frameError := false, eventsDropped := false } } } }) ∧
  (∀ (c : PortController) (state : SessionState) (voting : Bool),
     let b := statusByte c state voting
     b.getLsbD 7 = decide (2 ≤ c.outbound.length) ∧ b.getLsbD 6 = c.flags.overrun ∧
     b.getLsbD 5 = c.flags.frameError ∧ b.getLsbD 4 = c.flags.eventsDropped ∧
     b.getLsbD 3 = decide (state = .draining) ∧ b.getLsbD 2 = decide (state = .joined) ∧
     b.getLsbD 1 = voting ∧ b.getLsbD 0 = false)

/-- TRANSACTION_END of a Poll or of no byte. An outbound frame clocked out whole is delivered: a queued frame leaves
the queue, and the flags its status byte showed are cleared unless set again; a frame that a lease expiry removed
does neither. A frame not clocked out whole leaves the queue and the flags as they were.
The bits after the last byte change nothing (log 20). -/
def Obligations.TransactionEndDelivers : Prop :=
  ∀ (p : PortId) (s : State) (t : Transaction) (inbound : List Byte) (stray : Nat), ready s = true →
    (s.ports.get p).selHigh = false → (s.ports.get p).transaction = some t →
    (inbound = [] ∨ inbound.head? = some 0xFF) →
    let c := s.ports.get p
    let ended := { c with selHigh := true, transaction := none }
    let cleared : StickyFlags :=
      { overrun := c.flags.overrun && (!t.shown.overrun || t.since.overrun)
        frameError := c.flags.frameError && (!t.shown.frameError || t.since.frameError)
        eventsDropped := c.flags.eventsDropped && (!t.shown.eventsDropped || t.since.eventsDropped) }
    let after :=
      if t.bytes.length ≤ inbound.length then
        match t.fixed with
        | .idle => { ended with flags := cleared }
        | .head => { ended with flags := cleared, outbound := c.outbound.tail }
        | .removed => ended
      else ended
    exec (.transactionEnd p inbound stray) s = .next { s with ports := s.ports.set p after }

/-- TRANSACTION_END takes the inbound bytes after the delivery is decided, which `c` stands for: a frame discarded sets
FRAME_ERROR; a valid request frame is accepted while requests not yet answered and responses not yet delivered are
fewer than 4, and reloads the lease counter of a JOINED port; else it is discarded and OVERRUN set. The inbound bytes of
a transaction are judged by the first case of R193 that applies. -/
def Obligations.TransactionEndTakesTheRequest : Prop :=
  (∀ (p : PortId) (s : State) (t : Transaction) (inbound : List Byte) (stray : Nat), ready s = true →
     (s.ports.get p).selHigh = false → (s.ports.get p).transaction = some t →
     let ended := { s.ports.get p with selHigh := true, transaction := none }
     let c := if t.bytes.length ≤ inbound.length then deliverFrame t ended else ended
     let session := s.session.records.get p
     (judgeInbound inbound = .bad →
       exec (.transactionEnd p inbound stray) s = .next
         { s with ports := s.ports.set p { c with flags := { c.flags with frameError := true } } }) ∧
     (∀ r, judgeInbound inbound = .request r →
       (c.requests.length + c.outbound.countP Frame.isResponse < 4 →
         exec (.transactionEnd p inbound stray) s = .next
           { s with
             ports := s.ports.set p { c with requests := c.requests ++ [r] }
             session := if session.state = .joined then
                 { s.session with records := s.session.records.set p { session with counter := session.lease } }
               else s.session }) ∧
       (4 ≤ c.requests.length + c.outbound.countP Frame.isResponse →
         exec (.transactionEnd p inbound stray) s = .next
           { s with ports := s.ports.set p { c with flags := { c.flags with overrun := true } } }))) ∧
  (judgeInbound [] = .nothing ∧
   (∀ (first : Byte) (rest : List Byte),
     (first = 0xFF → judgeInbound (first :: rest) = .poll) ∧
     (0x51 ≤ first.toNat → first.toNat ≤ 0xFE → judgeInbound (first :: rest) = .bad) ∧
     (first.toNat ≤ 0x50 → (first :: rest).length < first.toNat + 4 → judgeInbound (first :: rest) = .bad)) ∧
   (∀ (r : Request) (check : Byte) (extra : List Byte), r.payload.length ≤ 80 →
     let front := byteOf r.payload.length :: r.tag :: r.code :: r.payload
     (check = crc8 front → judgeInbound (front ++ check :: extra) = .request r) ∧
     (check ≠ crc8 front → judgeInbound (front ++ check :: extra) = .bad)))

/-- UNKNOWN_CODE: a request whose code is not listed is answered UNKNOWN, in every session state, without payload. -/
def Obligations.UnknownCodeIsAnswered : Prop :=
  ∀ (p : PortId) (r : Request) (s : State), asks s p r = true →
    r.code.toNat ∉ [0x01, 0x02, 0x03, 0x04, 0x05, 0x06, 0x08, 0x09, 0x0A, 0x0B, 0x0C, 0x0D, 0x0E, 0x10, 0x11, 0x12,
      0x13, 0x14, 0x15, 0x18, 0x19, 0x1A, 0x1B, 0x1C, 0x1D, 0x20, 0x21, 0x22, 0x23, 0x28, 0x29, 0x2A, 0x2B] →
    exec (.unknownCode p) s = .next (s.answered p r.tag .unknown [])

/-- An event arriving at a port controller: appended while fewer than 12 events are queued; with 12 queued it is
coalesced into the newest queued event of the same code and subject, whose payload it replaces and whose repeat count
it raises up to 255, the frame fixed for a transaction being passed over; else it is dropped and EVENTS_DROPPED set,
which a transaction in progress notes as set since its status byte was formed.
That the newest is the matching one nearest the tail is the model's reading (log 26). A port takes events while JOINED,
and while DRAINING after a Leave. A response takes its request off the queue and goes to the tail, but for one to be
discarded. What one step sends arrives one message after another, each once; the messages of one origin keep their
order, and the order among origins is open (log 5, log 6). Of the steps of one frame start the order is fixed (log 4,
log 35). -/
def Obligations.EventsAreQueuedCoalescedOrDropped : Prop :=
  (∀ (c : PortController) (e : Event),
    (∀ d : Event, d.sameSubject e = true ↔ eventCode d = eventCode e ∧ eventSubject d = eventSubject e) ∧
    (c.outbound.countP Frame.isEvent < 12 → c.takeEvent e = { c with outbound := c.outbound ++ [.event e 1] }) ∧
    (∀ (before after : List Frame) (old : Event) (n : Nat), 12 ≤ c.outbound.countP Frame.isEvent →
      c.outbound = before ++ .event old n :: after → old.sameSubject e = true →
      (∀ f ∈ after, ∀ d k, f = .event d k → d.sameSubject e = false) → (c.headFixed = true → before ≠ []) →
      c.takeEvent e = { c with outbound := before ++ .event e (min 255 (n + 1)) :: after }) ∧
    (12 ≤ c.outbound.countP Frame.isEvent →
      (∀ f ∈ (if c.headFixed then c.outbound.tail else c.outbound), ∀ d k, f = .event d k →
        d.sameSubject e = false) →
      c.takeEvent e = { c with
        flags := { c.flags with eventsDropped := true }
        transaction := c.transaction.map fun x => { x with since := { x.since with eventsDropped := true } } })) ∧
  (∀ r : Session, r.takesEvents = true ↔
    r.state = .joined ∨ r.state = .draining ∧ r.cause = some .leave) ∧
  (∀ (s : State) (p : PortId),
    (∀ e, s.deliver (.event p e) = if (s.session.records.get p).takesEvents then
      s.setPort p ((s.ports.get p).takeEvent e) else s) ∧
    (∀ result payload r rest, (s.ports.get p).requests = r :: rest →
      s.deliver (.respond p result payload) = s.setPort p
        { s.ports.get p with
          requests := rest, executing := false, discard := false,
          outbound := if (s.ports.get p).discard then (s.ports.get p).outbound
            else (s.ports.get p).outbound ++ [.response r.tag result payload] }) ∧
    s.deliver (.sessionEnd p) = s.setSession p
      { state := .absent, lease := 0, counter := 0, view := .live, cause := none }) ∧
  (∀ a : Act, ∃ arrived : List (Origin × Msg),
    arrived.Perm a.out ∧
    (∀ o : Origin, arrived.filter (fun m => decide (m.1 = o)) = a.out.filter fun m => decide (m.1 = o)) ∧
    a.settle = (arrived.map Prod.snd).foldl State.deliver { a.st with arrivals := a.st.arrivals.tail })

/-! ### Requests in general -/

/-- A request of a length its code does not permit is answered LENGTH in every session state; of the right length, a
port that is ABSENT is answered NOT_JOINED and one that is DRAINING is answered BUSY, but for Status, and for Join and
Get Plan in ABSENT. The answer changes nothing else; the idle banks decide after the requests that can ask a bank for
something. A Stage with no byte, or with an edit kind that is not listed, is taken by each of the eleven Stage rows
(log 11). -/
def Obligations.RequestsAreRefusedInOrder : Prop :=
  ∀ (c : Instr) (p : PortId) (code : Byte) (kind : Option Byte) (r : Request) (s : State),
    requestOf c = some (p, code, kind) → asks s p r = true → r.code = code →
    (∀ k, kind = some k → ∀ b, r.payload.head? = some b → b = k ∨ b.toNat = 0 ∨ 11 < b.toNat) →
    let refused := fun result =>
      if code.toNat ∈ [0x03, 0x18, 0x19, 0x1B, 0x21, 0x22, 0x23] then arbitrate (s.answered p r.tag result [])
      else s.answered p r.tag result []
    (permittedLength code r.payload.length = false → exec c s = .next (refused .length)) ∧
    (permittedLength code r.payload.length = true → s.sessionState p = .absent → code.toNat ∉ [1, 2, 4] →
      exec c s = .next (refused .notJoined)) ∧
    (permittedLength code r.payload.length = true → s.sessionState p = .draining → code.toNat ≠ 1 →
      exec c s = .next (refused .busy))

/-- The records that requests carry decode to what was encoded, with every field at every value of its range: plans,
layer descriptors and window settings; and the eleven edits are read from the bytes that R208 lays out. -/
def Obligations.RecordsDecodeToWhatWasEncoded : Prop :=
  ((∀ k : Plan, k.inRange = true → decodePlan (encodePlan k) = some k) ∧
   (∀ (d : Descriptor) (front : List Byte), d.inRange = true →
     decodeDescriptor (front ++ encodeDescriptor d) front.length = some d) ∧
   (∀ (w : WinSettings) (front : List Byte), w.inRange = true →
     decodeSettings (front ++ encodeSettings w) front.length = some w)) ∧
  (∀ l : Fin 16, let slot : Byte := byteOf l.val
     (∀ d : Descriptor, d.inRange = true → decodeEdit (0x01 :: slot :: encodeDescriptor d) = some (.setLayer l d)) ∧
     (∀ x y : Int, positionInRange x = true → positionInRange y = true →
       decodeEdit (0x02 :: slot :: (encodeSigned x ++ encodeSigned y)) = some (.move l x y)) ∧
     decodeEdit [0x03, slot] = some (.showSlot l) ∧
     decodeEdit [0x04, slot] = some (.hideSlot l) ∧
     (∀ z : Fin 64, decodeEdit [0x05, slot, byteOf z.val] = some (.setDepth l z)) ∧
     (∀ o : Source, o.inRange = true →
       decodeEdit (0x06 :: slot :: 1 :: encodeSource (some o)) = some (.setSource l (some o))) ∧
     (∀ rest : List Byte, rest.length = 6 → decodeEdit (0x06 :: slot :: 0 :: rest) = some (.setSource l none)) ∧
     (∀ (fill c1 c2 c3 : Color) (m : CodeMap) (key : Half),
       decodeEdit (0x07 :: slot :: (encodeColor fill ++ encodeColor c1 ++ encodeColor c2 ++ encodeColor c3 ++
         encodeCodeMap m ++ 1 :: encode16 key.toNat)) = some (.setColours l fill c1 c2 c3 m (some key)) ∧
       decodeEdit (0x07 :: slot :: (encodeColor fill ++ encodeColor c1 ++ encodeColor c2 ++ encodeColor c3 ++
         encodeCodeMap m ++ 0 :: encode16 key.toNat)) = some (.setColours l fill c1 c2 c3 m none)) ∧
     (∀ c : Clip, c.inRange = true →
       decodeEdit (0x08 :: slot :: 1 :: encodeClip (some c)) = some (.setClip l (some c))) ∧
     (∀ rest : List Byte, rest.length = 8 → decodeEdit (0x08 :: slot :: 0 :: rest) = some (.setClip l none)) ∧
     (∀ b : Fin 64, decodeEdit [0x09, slot, 1, byteOf b.val] = some (.setPaletteBase l (some b)) ∧
       decodeEdit [0x09, slot, 0, byteOf b.val] = some (.setPaletteBase l none) ∧
       decodeEdit [0x0A, byteOf b.val] = some (.publish b)) ∧
     decodeEdit [0x0B, slot] = some (.retire l))

/-! ### Sessions and the plan -/

/-- STATUS and GET_PLAN answer with the records as they stand and change nothing else; Get Plan of a proposal that
does not exist is answered NO_OBJECT, and of another selector FIELD. -/
def Obligations.PlanQueriesAnswer : Prop :=
  ∀ (p : PortId) (r : Request) (s : State), asks s p r = true →
    let k := s.session.plan
    let record := s.session.records.get p
    let batch := s.commit.batches.get p
    (r.code = 0x01 → r.payload = [] →
      exec (.status p) s = .next (s.answered p r.tag .ok
        ([sessionStatesByte s, record.lease, record.counter, encodeView record.view,
          planStateCode s.session.planState] ++ encode16 (planDigest k).toNat ++
          [proposalByte s.session.planState p] ++ encode16 s.scan.frameCounter.toNat ++
          [batchStateCode batch.state, byteOf batch.edits.length, byteOf (slotsHeld s p),
            byteOf (k.quotas.get p).layers, byteOf (extentsOwned s p), byteOf (k.quotas.get p).extents] ++
          encode16 (rowsOwned s p) ++ encode16 (k.quotas.get p).rows ++
          [byteOf (blocksOwned s p), byteOf (k.quotas.get p).blocks, byteOf (windowsOwned s p),
            byteOf (k.quotas.get p).windows]))) ∧
    (r.code = 0x04 → s.sessionState p ≠ .draining →
      (r.payload = [0] →
        exec (.getPlan p) s = .next (s.answered p r.tag .ok
          (planStateCode s.session.planState :: (encodePlan k ++ encode16 (planDigest k).toNat)))) ∧
      (r.payload = [1] → s.session.planState.proposal? = none →
        exec (.getPlan p) s = .next (s.answered p r.tag .noObject [])) ∧
      (∀ q, r.payload = [1] → s.session.planState.proposal? = some q →
        exec (.getPlan p) s = .next (s.answered p r.tag .ok
          (planStateCode s.session.planState :: (encodePlan q.plan ++ encode16 (planDigest q.plan).toNat) ++
            [encodePort q.proposer, encodePortSet q.voters, encodePortSet q.accepted, byteOf q.remaining]))) ∧
      (∀ v : Byte, r.payload = [v] → 2 ≤ v.toNat →
        exec (.getPlan p) s = .next (s.answered p r.tag .field [])))

/-- JOIN of an ABSENT port: the session is JOINED with the lease and view given, the answer carries the port's quotas
and the digest and state of the plan, PEER_JOINED goes to every other JOINED port, and the port's cursor and
read-ahead buffer are absent and EMPTY. A JOINED port, or a view other than LIVE and STAGED, is answered FIELD. -/
def Obligations.JoinOpensASession : Prop :=
  ∀ (p : PortId) (r : Request) (s : State) (lease v : Byte), asks s p r = true → r.code = 0x02 →
    r.payload = [lease, v] →
    (s.sessionState p = .joined → exec (.join p) s = .next (s.answered p r.tag .field [])) ∧
    (s.sessionState p = .absent → 2 ≤ v.toNat → exec (.join p) s = .next (s.answered p r.tag .field [])) ∧
    (s.sessionState p = .absent → v.toNat < 2 → ∃ t, exec (.join p) s = .next t ∧
      let record : Session :=
        { state := .joined, lease, counter := lease, view := if v = 0 then .live else .staged, cause := none }
      t = { s with
        session := { s.session with records := s.session.records.set p record }
        ports := t.ports, transfer := t.transfer, banks := banksGivenUp s p, arrivals := s.arrivals.tail } ∧
      t.ports.get p =
        { s.ports.get p with
          requests := (s.ports.get p).requests.tail
          outbound := (s.ports.get p).outbound ++ [.response r.tag .ok
            (encodeQuotas (s.quotas p) ++ encode16 (planDigest s.session.plan).toNat ++
              [planStateCode s.session.planState])] } ∧
      (∀ q, q ≠ p → t.ports.get q = if s.sessionState q = .joined then
        (s.ports.get q).takeEvent (.peerJoined p) else s.ports.get q) ∧
      t.transfer.get p = { cursor := none, buffer := .empty, job := none } ∧
      ∀ q, q ≠ p → t.transfer.get q = s.transfer.get q)

/-- LEAVE of a JOINED port: the answer OK, and the teardown starts with cause LEAVE; the port's queues are kept.
LEASE_EXPIRY of a JOINED port with a lease whose counter stands at 0: the teardown starts with cause EXPIRY,
LEASE_EXPIRED is the port's only outbound frame, also for a frame partly clocked out, the requests not yet executing are
discarded, and the response to one that is executing is to be discarded. Either way a transfer in progress goes on
detached, one that waited for the buffer with its own accesses; the cursor and the buffer go, and a fetch is no longer
wanted. Only a Read ends there, when its extent is freed or its port's grant on it ends: it is answered NO_OBJECT or
NOT_GRANTED, its accesses not wanted, and a port that so loses an extent loses its cursor and buffer in it. PEER_LEFT
goes to every other JOINED port; when the port is a voter of the proposal, PLAN_FAILED, naming VOTER_LEFT and the port,
to every other voter; and for each of its extents GRANT_ENDED or GRANT_WITHDRAWN to each GRANTED grantee.
That the expiry is a command of its own after the frame start is the model's choice (log 4), and so is that its events
arrive behind UNDERRUN of line 0 (log 35). -/
def Obligations.LeaveAndLeaseExpiryStartTheTeardown : Prop :=
  (∀ (p : PortId) (r : Request) (s : State), asksFor s p r 0x03 0 = true →
     ∃ (a : Act) (t : State), exec (.leave p) s = .next t ∧ t = arbitrate a.settle ∧
     a.st.ports = s.ports ∧ departureSends s p a ∧
     teardownStarted s t p .leave ∧ unitsAtDeparture s a.settle p ∧
     (∀ q, answersTo q a = (if q = p then [.respond p .ok []] else []) ++ (departureAnswer s p q).toList) ∧
     t.ports.get p =
       { s.ports.get p with
         requests := (s.ports.get p).requests.tail
         outbound := (s.ports.get p).outbound ++ [.response r.tag .ok []] }) ∧
  (∀ (p : PortId) (s : State), s.resetN = true → s.sessionState p = .joined →
     (s.session.records.get p).lease ≠ 0 → (s.session.records.get p).counter = 0 →
     ∃ (a : Act) (t : State), exec (.leaseExpiry p) s = .next t ∧ t = arbitrate a.settle ∧
       (∀ q, q ≠ p → a.st.ports.get q = s.ports.get q) ∧ departureSends s p a ∧ teardownStarted s t p .expiry ∧
       unitsAtDeparture s a.settle p ∧ (∀ q, answersTo q a = (departureAnswer s p q).toList) ∧
       let c := s.ports.get p
       let expired := { c with
         requests := if c.executing then c.requests.take 1 else [], discard := c.executing
         outbound := [.event .leaseExpired 1]
         transaction := c.transaction.map fun x => if x.fixed = .head then { x with fixed := .removed } else x }
       t.ports.get p =
         if c.executing = true ∧ c.requests ≠ [] ∧ departureAnswer s p p ≠ none then
           { expired with requests := [], executing := false, discard := false }
         else expired)

/-- PROPOSE in STEADY of a plan in range and valid: a proposal with the JOINED ports as voters, the proposer alone
accepted and 128 frame starts remaining; ADOPTING when no other port is JOINED, else VOTING; the answer carries the
digest, and PLAN_PROPOSED goes to every other JOINED port. While a proposal exists the answer is BUSY, and for a plan
out of range or not valid FIELD. A plan is valid when the quotas of each kind total at most what the part has, no depth
value lies in two bands, and no port's layer quota passes the size of its band. -/
def Obligations.ProposeCreatesAProposal : Prop :=
  (∀ (p : PortId) (r : Request) (s : State), asksFor s p r 0x05 44 = true →
     (s.session.planState.proposal? ≠ none → exec (.propose p) s = .next (s.answered p r.tag .busy [])) ∧
     (s.session.planState = .steady → decodePlan r.payload = none →
       exec (.propose p) s = .next (s.answered p r.tag .field [])) ∧
     (∀ k, s.session.planState = .steady → decodePlan r.payload = some k → planValid k = false →
       exec (.propose p) s = .next (s.answered p r.tag .field [])) ∧
     (∀ k, s.session.planState = .steady → decodePlan r.payload = some k → planValid k = true →
       let q : Proposal :=
         { plan := k, proposer := p, voters := PerPort.tab s.joined, accepted := PerPort.tab fun v => decide (v = p),
           remaining := 128 }
       ∃ t, exec (.propose p) s = .next t ∧
         t = { s with
           session := { s.session with
             planState := if allPorts.all fun v => decide (v = p) || !s.joined v then .adopting q else .voting q }
           ports := t.ports, arrivals := s.arrivals.tail } ∧
         t.ports.get p =
           { s.ports.get p with
             requests := (s.ports.get p).requests.tail
             outbound := (s.ports.get p).outbound ++ [.response r.tag .ok (encode16 (planDigest k).toNat)] } ∧
         ∀ v, v ≠ p → t.ports.get v = if s.joined v then
           (s.ports.get v).takeEvent (.planProposed p (planDigest k)) else s.ports.get v)) ∧
  (∀ k : Plan, planValid k = true ↔
     (k.quotas.h0.layers + k.quotas.h1.layers + k.quotas.h2.layers + k.quotas.h3.layers ≤ 16 ∧
       k.quotas.h0.extents + k.quotas.h1.extents + k.quotas.h2.extents + k.quotas.h3.extents ≤ 32 ∧
       k.quotas.h0.rows + k.quotas.h1.rows + k.quotas.h2.rows + k.quotas.h3.rows ≤ 4096 ∧
       k.quotas.h0.blocks + k.quotas.h1.blocks + k.quotas.h2.blocks + k.quotas.h3.blocks ≤ 64 ∧
       k.quotas.h0.windows + k.quotas.h1.windows + k.quotas.h2.windows + k.quotas.h3.windows ≤ 8) ∧
     (∀ p q, p ≠ q → ∀ a b, (k.quotas.get p).band = some a → (k.quotas.get q).band = some b →
       a.high < b.low ∨ b.high < a.low) ∧
     ∀ p, match (k.quotas.get p).band with
       | some b => (k.quotas.get p).layers ≤ b.high - b.low + 1
       | none => (k.quotas.get p).layers = 0)

/-- VOTE: in VOTING, of a voter who has not accepted, on the digest of the proposal. ACCEPT is counted, and the last
one makes the state ADOPTING; REJECT discards the proposal, with PLAN_REJECTED to every voter, the rejecting port
included, whose answer and event may arrive in either order (log 5). Any other vote is
answered STALE, and a decision that is neither FIELD. VOTE_TIMEOUT with no frame start remaining: the proposal is
discarded, with PLAN_FAILED, naming TIMEOUT and the lowest-numbered voter who has not accepted, to every voter that
takes events.
That the time-out is a command of its own after the frame start is the model's choice (log 4), and so is that its events
arrive behind UNDERRUN of line 0 (log 35). -/
def Obligations.VotesAreCountedAndTimeOut : Prop :=
  (∀ (p : PortId) (r : Request) (s : State) (decision : Byte) (digest : Half), asksFor s p r 0x06 3 = true →
     r.payload = decision :: encode16 digest.toNat →
     (2 ≤ decision.toNat → exec (.vote p) s = .next (s.answered p r.tag .field [])) ∧
     (decision.toNat < 2 →
       (∀ q, s.session.planState = .voting q →
         q.voters.get p = false ∨ q.accepted.get p = true ∨ digest ≠ planDigest q.plan) →
       exec (.vote p) s = .next (s.answered p r.tag .stale [])) ∧
     (∀ q, s.session.planState = .voting q → q.voters.get p = true → q.accepted.get p = false →
       digest = planDigest q.plan →
       (decision = 1 →
         let q' := { q with accepted := q.accepted.set p true }
         exec (.vote p) s = .next
           { s.answered p r.tag .ok [] with
             session := { s.session with planState := if q'.accepted = q.voters then .adopting q' else .voting q' } }) ∧
       (decision = 0 → ∃ t, exec (.vote p) s = .next t ∧
         t = { s with
           session := { s.session with planState := .steady }, ports := t.ports, arrivals := s.arrivals.tail } ∧
         (∀ v, v ≠ p → t.ports.get v =
           if q.voters.get v && (s.session.records.get v).takesEvents then
             (s.ports.get v).takeEvent (.planRejected p) else s.ports.get v) ∧
         let answered := fun c : PortController =>
           { c with requests := c.requests.tail, outbound := c.outbound ++ [.response r.tag .ok []] }
         (t.ports.get p = (answered (s.ports.get p)).takeEvent (.planRejected p) ∨
           t.ports.get p = answered ((s.ports.get p).takeEvent (.planRejected p)))))) ∧
  (∀ (s : State) (q : Proposal) (missing : PortId), s.resetN = true → s.session.planState = .voting q →
     q.remaining = 0 → q.voters.get missing = true → q.accepted.get missing = false →
     (∀ v, q.voters.get v = true → q.accepted.get v = false → portNumber missing ≤ portNumber v) →
     ∃ t, exec .voteTimeout s = .next t ∧
       t = { s with
         session := { s.session with planState := .steady }, ports := t.ports, arrivals := s.arrivals.tail } ∧
       ∀ v, t.ports.get v = if q.voters.get v && (s.session.records.get v).takesEvents then
         (s.ports.get v).takeEvent (.planFailed .timeout missing) else s.ports.get v)


/-! ### Layers and batches -/

/-- CLAIM_LAYER under the quota: the lowest-numbered FREE slot becomes the port's, with the lowest depth of its band
that no OWNED slot of it holds and the default descriptor; the answer carries both. At the quota the answer is QUOTA. -/
def Obligations.ClaimLayerGivesASlot : Prop :=
  ∀ (p : PortId) (r : Request) (s : State), asksFor s p r 0x08 0 = true →
    ((s.quotas p).layers ≤ slotsOwned s p → exec (.claimLayer p) s = .next (s.answered p r.tag .quota [])) ∧
    (∀ (l : Fin 16) (z : Fin 64), slotsOwned s p < (s.quotas p).layers →
      s.slot l = .free → (∀ m, m < l → s.slot m ≠ .free) →
      inBand z.val (s.quotas p).band = true → depthHeld s p z = false →
      (∀ y, y < z → inBand y.val (s.quotas p).band = true → depthHeld s p y = true) →
      exec (.claimLayer p) s = .next
        ((s.setSlot l (.held .owned p
          { format := .fill, z, width := 1, height := 1, x := 0, y := 0, ax := 0, ay := 0, source := none,
            paletteBase := none, key := none,
            codeMap := ⟨.transparent, .transparent, .transparent, .transparent⟩, c1 := 0, c2 := 0, c3 := 0,
            fill := 0, clip := none, visible := false, movable := false })).answered p r.tag .ok
          [byteOf l.val, byteOf z.val]))

/-- SET_VIEW sets the port's view, and answers FIELD to any other value. -/
def Obligations.SetViewSetsTheView : Prop :=
  ∀ (p : PortId) (r : Request) (s : State) (v : Byte), asksFor s p r 0x0A 1 = true → r.payload = [v] →
    (v.toNat < 2 →
      exec (.setView p) s = .next
        ((s.setSession p { s.session.records.get p with view := if v = 0 then .live else .staged }).answered
          p r.tag .ok [])) ∧
    (2 ≤ v.toNat → exec (.setView p) s = .next (s.answered p r.tag .field []))

/-- GET_LAYER, GET_WINDOW, GET_EXTENT and PALETTE_READ answer with the record as it stands and change nothing else.
Get Layer answers the projection to the owner of an OWNED slot whose view is STAGED and whose batch is not EMPTY. A
field outside its range is answered FIELD.
The value bytes of a LEARN reference (log 17) and the code of the dirty byte (log 34) are the model's choice. -/
def Obligations.RecordQueriesAnswer : Prop :=
  ∀ (p : PortId) (r : Request) (s : State),
    (∀ (l : Fin 16), asksFor s p r 0x09 1 = true → r.payload = [byteOf l.val] →
      (s.slot l = .free → exec (.getLayer p) s = .next (s.answered p r.tag .noObject [])) ∧
      (∀ state owner d, s.slot l = .held state owner d →
        let projected := state = .owned ∧ owner = p ∧ (s.session.records.get p).view = .staged ∧
          (s.commit.batches.get p).state ≠ .empty
        let j := project l d (s.commit.batches.get p).edits
        (¬projected → exec (.getLayer p) s = .next (s.answered p r.tag .ok
          ([heldStateCode state, encodePort owner, 0] ++ encodeDescriptor d))) ∧
        (projected → exec (.getLayer p) s = .next (s.answered p r.tag .ok
          ([heldStateCode state, encodePort owner, if j.retire then 3 else 1] ++ encodeDescriptor j.desc))))) ∧
    (∀ (n : Fin 8), asksFor s p r 0x15 1 = true → r.payload = [byteOf n.val] →
      (s.window n = none → exec (.getWindow p) s = .next (s.answered p r.tag .noObject [])) ∧
      ∀ w, s.window n = some w → exec (.getWindow p) s = .next (s.answered p r.tag .ok
        ([(match w.state with | .idle => (1 : Byte) | .armed => 2 | .running => 3 | .halted => 4),
            byteOf (portNumber w.owner)] ++
          encode16 w.settings.x ++ encode16 w.settings.y ++ encode16 w.settings.w ++ encode16 w.settings.h ++
          [byteOf ((match w.settings.mode with | .oneShot => 0 | .continuous => 1) +
              (match w.settings.reference with | some _ => 0 | none => 2) +
              (match w.settings.scope with | .owner => 0 | .all => 4) +
              (match w.settings.report with | .results => 0 | .faults => 8)),
            byteOf w.settings.threshold] ++
          encodeColor (match w.settings.reference with | some v => v | none => 0) ++
          [byteOf ((match w.expected with | some _ => 1 | none => 0) +
            (match w.lastSignature with | some _ => 2 | none => 0) + if w.taint then 4 else 0)] ++
          encodeColor (match w.expected with | some v => v | none => 0) ++
          encodeColor (match w.lastSignature with | some v => v | none => 0) ++
          [(match w.lastResult with
            | .none => (0 : Byte) | .pass => 1 | .fail => 2 | .learned => 3 | .indeterminate => 4),
            byteOf w.consecutive] ++
          encode16 w.total ++ encode16 w.checked))) ∧
    (∀ (h : Fin 32), asksFor s p r 0x1D 1 = true → r.payload = [byteOf h.val] →
      (s.extent h = none → exec (.getExtent p) s = .next (s.answered p r.tag .noObject [])) ∧
      ∀ e, s.extent h = some e →
        (e.owner ≠ some p → e.grants.get p = .none →
          exec (.getExtent p) s = .next (s.answered p r.tag .notGranted [])) ∧
        (e.owner = some p ∨ e.grants.get p ≠ .none →
          let grant := fun q => if e.owner = some q then (0 : Byte) else match e.grants.get q with
            | .none => 0 | .granted => 1 | .withdrawing => 2
          let count := fun q => byteOf (e.counts.get q)
          exec (.getExtent p) s = .next (s.answered p r.tag .ok
            ([(match e.owner with | some q => byteOf (portNumber q) | none => 0xFF)] ++
              encode16 e.firstRow ++ encode16 e.rows ++
              [(match e.state with | .clearing => (0 : Byte) | .ready => 1 | .damaged => 2)] ++
              encode16 e.progress ++ [byteOf e.lost] ++
              [grant .h0, grant .h1, grant .h2, grant .h3] ++ [count .h0, count .h1, count .h2, count .h3])))) ∧
    (∀ (b : Fin 64) (shadow : Bool) (first : Fin 16) (count : Nat), asksFor s p r 0x2B 4 = true →
      1 ≤ count → first.val + count ≤ 16 →
      r.payload = [byteOf b.val, byteOf shadow.toNat, byteOf first.val, byteOf count] →
      (shadow = true → (s.block b).owner ≠ some p →
        exec (.paletteRead p) s = .next (s.answered p r.tag .notOwner [])) ∧
      (shadow = false ∨ (s.block b).owner = some p →
        exec (.paletteRead p) s = .next (s.answered p r.tag .ok
          ([encodeOwner (s.block b).owner, byteOf (s.block b).dirty.toNat] ++
            (((if shadow then (s.block b).shadow else (s.block b).live).toList.drop first.val).take count).flatMap
              encodeColor)))) ∧
    (∀ v : Byte, r.payload = [v] →
      (16 ≤ v.toNat → asksFor s p r 0x09 1 = true → exec (.getLayer p) s = .next (s.answered p r.tag .field [])) ∧
      (8 ≤ v.toNat → asksFor s p r 0x15 1 = true → exec (.getWindow p) s = .next (s.answered p r.tag .field [])) ∧
      (32 ≤ v.toNat → asksFor s p r 0x1D 1 = true → exec (.getExtent p) s = .next (s.answered p r.tag .field []))) ∧
    (∀ block copy first count : Byte, asksFor s p r 0x2B 4 = true → r.payload = [block, copy, first, count] →
      64 ≤ block.toNat ∨ 2 ≤ copy.toNat ∨ count = 0 ∨ 16 ≤ first.toNat ∨ 16 < first.toNat + count.toNat →
      exec (.paletteRead p) s = .next (s.answered p r.tag .field []))

/-- A Stage row of a batch that is not CLOSED, with an edit in range whose slot, if it names one, the port holds OWNED,
and fewer than 32 edits: the edit is appended, the buffer is OPEN, and the answer carries the edit's number. It is
refused, in this order, with BUSY while the batch is CLOSED, FIELD for an edit kind that is not listed, which any of the
eleven rows takes (log 11), or an edit out of range, NOT_OWNER for a slot the port does not hold OWNED, FULL at 32
edits; nothing else changes. The projection of a slot
takes the edits that name it in batch order: each replaces the fields it carries, Set Layer the whole descriptor; Retire
Layer sets the retire-pending mark and Set Layer clears it; an edit that names another slot, or none, changes nothing. -/
def Obligations.StageAppendsTheEdit : Prop :=
  (∀ (row : Byte × (PortId → Instr)) (p : PortId) (r : Request) (s : State) (e : Edit), row ∈ stageRows →
     asks s p r = true → s.sessionState p = .joined → r.code = 0x0B →
     r.payload.head? = some row.1 → decodeEdit r.payload = some e →
     (∀ l, e.slot? = some l → ∃ d, s.slot l = .held .owned p d) →
     (s.commit.batches.get p).state ≠ .closed → (s.commit.batches.get p).edits.length < 32 →
     exec (row.2 p) s = .next
       ((s.setBatch p
         { state := .opened, edits := (s.commit.batches.get p).edits ++ [e], target := none }).answered p r.tag .ok
         [byteOf ((s.commit.batches.get p).edits.length + 1)])) ∧
  (∀ (row : Byte × (PortId → Instr)) (p : PortId) (r : Request) (s : State), row ∈ stageRows →
     asks s p r = true → s.sessionState p = .joined → r.code = 0x0B →
     (∀ b, r.payload.head? = some b → b = row.1 ∨ b.toNat = 0 ∨ 11 < b.toNat) →
     permittedLength 0x0B r.payload.length = true →
     ((s.commit.batches.get p).state = .closed → exec (row.2 p) s = .next (s.answered p r.tag .busy [])) ∧
     ((s.commit.batches.get p).state ≠ .closed →
       (∀ b, r.payload.head? = some b → b.toNat = 0 ∨ 11 < b.toNat →
         exec (row.2 p) s = .next (s.answered p r.tag .field [])) ∧
       (decodeEdit r.payload = none → exec (row.2 p) s = .next (s.answered p r.tag .field [])) ∧
       (∀ e l, decodeEdit r.payload = some e → e.slot? = some l → (s.slot l).ownedBy p = false →
         exec (row.2 p) s = .next (s.answered p r.tag .notOwner [])) ∧
       (∀ e, decodeEdit r.payload = some e → (∀ l, e.slot? = some l → (s.slot l).ownedBy p = true) →
         32 ≤ (s.commit.batches.get p).edits.length →
         exec (row.2 p) s = .next (s.answered p r.tag .full [])))) ∧
  (∀ (l : Fin 16) (base : Descriptor), project l base [] = { desc := base, retire := false }) ∧
  (∀ (l : Fin 16) (base : Descriptor) (edits : List Edit) (e : Edit),
     let j := project l base edits
     project l base (edits ++ [e]) = match e with
       | .setLayer m d => if m = l then { desc := d, retire := false } else j
       | .move m x y => if m = l then { j with desc := { j.desc with x, y } } else j
       | .showSlot m => if m = l then { j with desc := { j.desc with visible := true } } else j
       | .hideSlot m => if m = l then { j with desc := { j.desc with visible := false } } else j
       | .setDepth m z => if m = l then { j with desc := { j.desc with z } } else j
       | .setSource m source => if m = l then { j with desc := { j.desc with source } } else j
       | .setColours m fill c1 c2 c3 codeMap key =>
         if m = l then { j with desc := { j.desc with fill, c1, c2, c3, codeMap, key } } else j
       | .setClip m clip => if m = l then { j with desc := { j.desc with clip } } else j
       | .setPaletteBase m paletteBase => if m = l then { j with desc := { j.desc with paletteBase } } else j
       | .publish _ => j
       | .retire m => if m = l then { j with retire := true } else j)

/-- CLOSE_BATCH: of an OPEN batch, OK with the edit count, and the batch is CLOSED with the target given or none; of an
EMPTY one FIELD, of a CLOSED one BUSY. ABANDON_BATCH: an OPEN or CLOSED batch is discarded, OK with the number of edits
discarded; of an EMPTY one the answer is TOO_LATE. -/
def Obligations.BatchesAreClosedAndAbandoned : Prop :=
  (∀ (p : PortId) (r : Request) (s : State), asks s p r = true → s.sessionState p = .joined → r.code = 0x0C →
     let b := s.commit.batches.get p
     (r.payload = [] → b.state = .opened → exec (.closeBatch p) s = .next
       ((s.setBatch p { b with state := .closed, target := none }).answered p r.tag .ok [byteOf b.edits.length])) ∧
     (∀ f : Half, r.payload = encode16 f.toNat → b.state = .opened → exec (.closeBatch p) s = .next
       ((s.setBatch p { b with state := .closed, target := some f }).answered p r.tag .ok [byteOf b.edits.length])) ∧
     (r.payload.length = 0 ∨ r.payload.length = 2 →
       (b.state = .empty → exec (.closeBatch p) s = .next (s.answered p r.tag .field [])) ∧
       (b.state = .closed → exec (.closeBatch p) s = .next (s.answered p r.tag .busy [])))) ∧
  (∀ (p : PortId) (r : Request) (s : State), asksFor s p r 0x0D 0 = true →
     let b := s.commit.batches.get p
     (b.state = .opened ∨ b.state = .closed → exec (.abandonBatch p) s = .next
       ((s.setBatch p { state := .empty, edits := [], target := none }).answered p r.tag .ok
         [byteOf b.edits.length])) ∧
     (b.state = .empty → exec (.abandonBatch p) s = .next (s.answered p r.tag .tooLate [])))

/-- MOVE_NOW of an OWNED slot of the port that is movable and visible: x and y of the live descriptor are replaced at
once. In the ACTIVE phase every RUNNING window that meets the old or the new screen rectangle is tainted; in the BLANK
phase every window that does is tainted for the coming frame and the move is recorded. Unchanged x and y change
nothing; a slot, x or y out of range is answered FIELD, another port's slot NOT_OWNER, a layer not movable or not visible
FIELD. Two rectangles meet
when they share a pixel; the screen rectangle of a layer begins at its position less its anchor. -/
def Obligations.MoveNowMovesTheLayer : Prop :=
  (∀ (p : PortId) (r : Request) (s : State) (l : Fin 16) (x y : Int), asksFor s p r 0x0E 5 = true →
    positionInRange x = true → positionInRange y = true →
    r.payload = byteOf l.val :: (encodeSigned x ++ encodeSigned y) →
    ((s.slot l).ownedBy p = false → exec (.moveNow p) s = .next (s.answered p r.tag .notOwner [])) ∧
    (∀ d, s.slot l = .held .owned p d →
      (d.movable = false ∨ d.visible = false → exec (.moveNow p) s = .next (s.answered p r.tag .field [])) ∧
      (d.movable = true → d.visible = true →
        (x = d.x → y = d.y → exec (.moveNow p) s = .next (s.answered p r.tag .ok [])) ∧
        (¬(x = d.x ∧ y = d.y) →
          let d' := { d with x, y }
          let meets := fun w : Window => (windowRect w.settings).meets (screenRect d) ||
            (windowRect w.settings).meets (screenRect d')
          let moved := s.setSlot l (.held .owned p d')
          (s.scan.phase = .active → exec (.moveNow p) s = .next
            ({ moved with check := { s.check with
                windows := tabulate fun n => (s.window n).map fun w : Window =>
                  if w.state = WinState.running ∧ meets w = true then { w with taint := true } else w } }.answered
              p r.tag .ok [])) ∧
          (s.scan.phase = .blank → exec (.moveNow p) s = .next
            ({ moved with check :=
                { windows := tabulate fun n => (s.window n).map fun w : Window =>
                    if meets w = true then { w with nextTaint := true } else w
                  moved := true } }.answered p r.tag .ok [])))))) ∧
  (∀ (p : PortId) (r : Request) (s : State) (slot : Byte) (x y : Int), asksFor s p r 0x0E 5 = true →
    r.payload = slot :: (encodeSigned x ++ encodeSigned y) →
    -32768 ≤ x → x ≤ 32767 → -32768 ≤ y → y ≤ 32767 →
    16 ≤ slot.toNat ∨ positionInRange x = false ∨ positionInRange y = false →
    exec (.moveNow p) s = .next (s.answered p r.tag .field [])) ∧
  (∀ d : Descriptor, screenRect d = { left := d.x - d.ax, top := d.y - d.ay, width := d.width, height := d.height }) ∧
  (∀ w : WinSettings, windowRect w = { left := w.x, top := w.y, width := w.w, height := w.h }) ∧
  (∀ a b : Rect, 1 ≤ a.width → 1 ≤ a.height → 1 ≤ b.width → 1 ≤ b.height →
    let holds := fun (c : Rect) (px line : Int) =>
      c.left ≤ px ∧ px < c.left + c.width ∧ c.top ≤ line ∧ line < c.top + c.height
    (a.meets b = true ↔ ∃ px line, holds a px line ∧ holds b px line))

/-! ### Signature windows -/

/-- DEFINE_WINDOW with settings in range and inside the active area, under the quota: the lowest-numbered FREE window
becomes IDLE with the values R76 gives; the next-frame taint flag is set when a move has been recorded for the coming
frame. Settings out of range or a rectangle outside are answered FIELD, and at the quota QUOTA. CHANGE_WINDOW of the
port's IDLE or HALTED window: the six settings are replaced and the expected value becomes the new reference value, or
absent for LEARN; the rest of the record stays. Settings out of range or a rectangle outside are answered FIELD there too;
an ARMED or RUNNING window is answered BUSY.
That BUSY comes before FIELD is the model's reading (log 25). -/
def Obligations.WindowsAreDefinedAndChanged : Prop :=
  (∀ (p : PortId) (r : Request) (s : State), asksFor s p r 0x10 13 = true →
     (decodeSettings r.payload 0 = none → exec (.defineWindow p) s = .next (s.answered p r.tag .field [])) ∧
     (∀ w, decodeSettings r.payload 0 = some w →
       let inside := w.x + w.w ≤ s.session.plan.timing.width ∧ w.y + w.h ≤ s.session.plan.timing.height
       (¬inside → exec (.defineWindow p) s = .next (s.answered p r.tag .field [])) ∧
       (inside → (s.quotas p).windows ≤ windowsOwned s p →
         exec (.defineWindow p) s = .next (s.answered p r.tag .quota [])) ∧
       (∀ n : Fin 8, inside → windowsOwned s p < (s.quotas p).windows → s.window n = none →
         (∀ m, m < n → s.window m ≠ none) →
         exec (.defineWindow p) s = .next
           ((s.setWindow n (some
             { state := .idle, owner := p, settings := w, expected := w.reference, register := 0xFFFFFF,
               lastSignature := none, lastResult := .none, consecutive := 0, total := 0, checked := 0,
               taint := false, nextTaint := s.check.moved && decide (s.scan.phase = .blank) })).answered p r.tag .ok
             [byteOf n.val])))) ∧
  (∀ (p : PortId) (r : Request) (s : State) (n : Fin 8) (w : Window) (rest : List Byte),
     asksFor s p r 0x11 14 = true → r.payload = byteOf n.val :: rest → s.window n = some w → w.owner = p →
     (w.state = .armed ∨ w.state = .running → exec (.changeWindow p) s = .next (s.answered p r.tag .busy [])) ∧
     (w.state = .idle ∨ w.state = .halted →
       decodeSettings r.payload 1 = none ∨ (∃ v, decodeSettings r.payload 1 = some v ∧
         ¬(v.x + v.w ≤ s.session.plan.timing.width ∧ v.y + v.h ≤ s.session.plan.timing.height)) →
       exec (.changeWindow p) s = .next (s.answered p r.tag .field [])) ∧
     (w.state = .idle ∨ w.state = .halted → ∀ v, decodeSettings r.payload 1 = some v →
       v.x + v.w ≤ s.session.plan.timing.width → v.y + v.h ≤ s.session.plan.timing.height →
       exec (.changeWindow p) s = .next
         ((s.setWindow n (some { w with
           settings := v, expected := v.reference,
           nextTaint := w.nextTaint || (s.check.moved && decide (s.scan.phase = .blank)) })).answered p r.tag .ok [])))

/-- ARM, DISARM and FREE_WINDOW of the port's own window. The requests that name a window are refused, in this order, with
FIELD for a number outside 0 to 7, NO_OBJECT for a FREE window and, but for Get Window, NOT_OWNER for a window of another
port.
The value of a discarded register is the model's choice (log 32). -/
def Obligations.WindowsAreArmedDisarmedAndFreed : Prop :=
  (∀ (p : PortId) (r : Request) (s : State) (n : Fin 8) (w : Window), asks s p r = true →
     s.sessionState p = .joined → r.payload = [byteOf n.val] → s.window n = some w → w.owner = p →
     (r.code = 0x12 →
       (w.state = .idle ∨ w.state = .halted → exec (.arm p) s = .next
         ((s.setWindow n (some { w with state := .armed, consecutive := 0 })).answered p r.tag .ok [])) ∧
       (w.state = .armed ∨ w.state = .running → exec (.arm p) s = .next (s.answered p r.tag .busy []))) ∧
     (r.code = 0x13 →
       (w.state = .armed ∨ w.state = .running → exec (.disarm p) s = .next
         ((s.setWindow n (some { w with state := .idle, register := 0xFFFFFF, taint := false })).answered
           p r.tag .ok [])) ∧
       (w.state = .idle ∨ w.state = .halted → exec (.disarm p) s = .next (s.answered p r.tag .ok []))) ∧
     (r.code = 0x14 → exec (.freeWindow p) s = .next ((s.setWindow n none).answered p r.tag .ok []))) ∧
  (∀ (p : PortId) (r : Request) (s : State) (v : Byte) (rest : List Byte), asks s p r = true →
     s.sessionState p = .joined → r.payload = v :: rest →
     ∀ row ∈ [((0x11 : Byte), Instr.changeWindow), (0x12, .arm), (0x13, .disarm), (0x14, .freeWindow),
       (0x15, .getWindow)],
     r.code = row.1 → permittedLength row.1 r.payload.length = true →
     (8 ≤ v.toNat → exec (row.2 p) s = .next (s.answered p r.tag .field [])) ∧
     (∀ n : Fin 8, v = byteOf n.val → s.window n = none →
       exec (row.2 p) s = .next (s.answered p r.tag .noObject [])) ∧
     (∀ (n : Fin 8) (w : Window), v = byteOf n.val → s.window n = some w → w.owner ≠ p → row.1 ≠ 0x15 →
       exec (row.2 p) s = .next (s.answered p r.tag .notOwner [])))


/-! ### Extents and grants -/

/-- ALLOC_EXTENT of 1 to 4,096 rows within the quotas: the lowest-numbered free handle, and the run of free rows that
begins at the lowest global row; the record is CLEARING and last on the port's clear list, the answer carries handle
and first row, and the idle banks decide. A count outside the range is answered FIELD, past a quota QUOTA, with no free
handle FULL, and with no run of free rows long enough NO_SPACE, in this order.
The rows held after a free are computed (log 15). -/
def Obligations.AllocExtentIsFirstFit : Prop :=
  ∀ (p : PortId) (r : Request) (s : State) (n : Nat), asksFor s p r 0x18 2 = true → n < 65536 →
    r.payload = encode16 n → extentsInv s = true →
    let free := fun x : Nat => x < 4096 ∧
      (∀ h e, s.extent h = some e → ¬(e.firstRow ≤ x ∧ x < e.firstRow + e.rows)) ∧ x ∉ rowsInFlight s ∧
      x ∉ rowsBeingWritten s
    (n = 0 ∨ 4096 < n → exec (.allocExtent p) s = .next (arbitrate (s.answered p r.tag .field []))) ∧
    (1 ≤ n → n ≤ 4096 →
      ((s.quotas p).extents ≤ extentsOwned s p ∨ (s.quotas p).rows < rowsOwned s p + n →
        exec (.allocExtent p) s = .next (arbitrate (s.answered p r.tag .quota []))) ∧
      (extentsOwned s p < (s.quotas p).extents → rowsOwned s p + n ≤ (s.quotas p).rows →
        ((∀ h, s.extent h ≠ none) → exec (.allocExtent p) s = .next (arbitrate (s.answered p r.tag .full []))) ∧
        ((∃ h, s.extent h = none) → (∀ g, ∃ x, g ≤ x ∧ x < g + n ∧ ¬free x) →
          exec (.allocExtent p) s = .next (arbitrate (s.answered p r.tag .noSpace [])))) ∧
      (∀ (h : Fin 32) (g : Nat), extentsOwned s p < (s.quotas p).extents → rowsOwned s p + n ≤ (s.quotas p).rows →
        s.extent h = none → (∀ k, k < h → s.extent k ≠ none) →
        (∀ x, g ≤ x → x < g + n → free x) → (∀ g', g' < g → ∃ x, g' ≤ x ∧ x < g' + n ∧ ¬free x) →
        exec (.allocExtent p) s = .next (arbitrate
          (((s.setExtent h (some
              { owner := some p, allocator := p, firstRow := g, rows := n, state := .clearing, progress := 0,
                lost := 0, grants := ⟨.none, .none, .none, .none⟩, counts := ⟨0, 0, 0, 0⟩ })).setClearList p
            (s.extents.clearLists.get p ++ [h])).answered p r.tag .ok (byteOf h.val :: encode16 g)))))

/-- FREE_EXTENT of the port's own extent: IN_USE while any port's reference count on it is not 0; else the record is
gone, it leaves every clear list, each GRANTED grantee that takes events gets GRANT_ENDED, and no transfer unit keeps a
cursor, a buffer or a Read on it: a Read of it in progress is answered NO_OBJECT, that answer and GRANT_ENDED arriving in
either order (log 5). -/
def Obligations.FreeExtentFreesTheHandle : Prop :=
  ∀ (p : PortId) (r : Request) (s : State) (h : Fin 32) (e : Extent), asksFor s p r 0x19 1 = true →
    r.payload = [byteOf h.val] → s.extent h = some e → e.owner = some p → e.allocator = p →
    ((∃ q, e.counts.get q ≠ 0) →
      exec (.freeExtent p) s = .next (arbitrate (s.answered p r.tag .inUse []))) ∧
    ((∀ q, e.counts.get q = 0) → ∃ t, exec (.freeExtent p) s = .next t ∧
      t = { s with
        extents := t.extents, transfer := t.transfer, banks := t.banks, ports := t.ports
        scan := { s.scan with fetch := t.scan.fetch }, arrivals := s.arrivals.tail } ∧
      t.extent h = none ∧ (∀ k, k ≠ h → t.extent k = s.extent k) ∧
      (∀ q, t.extents.clearLists.get q = (s.extents.clearLists.get q).filter fun k => decide (k ≠ h)) ∧
      (t.ports.get p).requests = (s.ports.get p).requests.tail ∧
      .response r.tag .ok [] ∈ (t.ports.get p).outbound ∧
      (e.grants.get p ≠ .granted → (t.ports.get p).outbound = (s.ports.get p).outbound ++ [.response r.tag .ok []]) ∧
      (∀ q, q ≠ p → portToldOfLoss s t q h .noObject
        (if e.grants.get q = .granted then some (.grantEnded h p) else none)) ∧
      ∀ q, unitLoses s t q h)

/-- GRANT, REVOKE and MEND of the port's own extent. A Grant to another JOINED port makes its grant GRANTED; a Revoke of
a GRANTED grant makes it NONE when the target draws nothing from the extent, with GRANT_ENDED, else WITHDRAWING, with
GRANT_WITHDRAWN, and leaves another grant as it is; with a grant that becomes NONE the target's transfer unit loses the
extent, and a Read of it in progress is answered NOT_GRANTED, that answer and GRANT_ENDED arriving in either order
(log 5). A Mend makes a DAMAGED extent READY with lost count 0. The refusals of the requests on a port's own extent, Free
Extent among them, come before, in this order: FIELD for a handle outside 0 to 31 or a port outside 0 to 3, NO_OBJECT for
a handle that names no extent, NOT_OWNER for an extent of another port or an orphan. -/
def Obligations.GrantRevokeAndMend : Prop :=
  (∀ (p q : PortId) (r : Request) (s : State) (h : Fin 32) (e : Extent), asks s p r = true →
    s.sessionState p = .joined → s.extent h = some e → e.owner = some p →
    (r.code = 0x1A → r.payload = [byteOf h.val, encodePort q] →
      (q = p ∨ s.sessionState q ≠ .joined → exec (.grant p) s = .next (s.answered p r.tag .field [])) ∧
      (q ≠ p → s.sessionState q = .joined → exec (.grant p) s = .next
        ((s.setExtent h (some { e with grants := e.grants.set q .granted })).answered p r.tag .ok []))) ∧
    (r.code = 0x1B → r.payload = [byteOf h.val, encodePort q] →
      (q = p → exec (.revoke p) s = .next (arbitrate (s.answered p r.tag .field []))) ∧
      (q ≠ p → e.grants.get q ≠ .granted → exec (.revoke p) s = .next (arbitrate (s.answered p r.tag .ok []))) ∧
      (q ≠ p → e.grants.get q = .granted → ∃ t, exec (.revoke p) s = .next t ∧
        t.extent h = some { e with grants := e.grants.set q (if e.counts.get q = 0 then .none else .withdrawing) } ∧
        (∀ k, k ≠ h → t.extent k = s.extent k) ∧
        t.ports.get p =
          { s.ports.get p with
            requests := (s.ports.get p).requests.tail
            outbound := (s.ports.get p).outbound ++ [.response r.tag .ok []] } ∧
        (∀ v, v ≠ p → v ≠ q → t.ports.get v = s.ports.get v) ∧
        (e.counts.get q = 0 → portToldOfLoss s t q h .notGranted (some (.grantEnded h p)) ∧ unitLoses s t q h) ∧
        (e.counts.get q ≠ 0 → t.ports.get q =
          if (s.session.records.get q).takesEvents then (s.ports.get q).takeEvent (.grantWithdrawn h p)
          else s.ports.get q) ∧
        t.extents.clearLists = s.extents.clearLists ∧
        t = { s with
          extents := t.extents, transfer := t.transfer, banks := t.banks, ports := t.ports
          scan := { s.scan with fetch := t.scan.fetch }, arrivals := s.arrivals.tail })) ∧
    (r.code = 0x1C → r.payload = [byteOf h.val] →
      (e.state = .damaged → exec (.mend p) s = .next
        ((s.setExtent h (some { e with state := .ready, lost := 0 })).answered p r.tag .ok [])) ∧
      (e.state = .ready → exec (.mend p) s = .next (s.answered p r.tag .ok [])) ∧
      (e.state = .clearing → exec (.mend p) s = .next (s.answered p r.tag .busy [])))) ∧
  (∀ (p : PortId) (r : Request) (s : State) (handle : Byte) (rest : List Byte), asks s p r = true →
    s.sessionState p = .joined → r.payload = handle :: rest →
    ∀ row ∈ [((0x19 : Byte), Instr.freeExtent), (0x1A, .grant), (0x1B, .revoke), (0x1C, .mend)],
    r.code = row.1 → permittedLength row.1 r.payload.length = true →
    let refused := fun result =>
      if row.1 = 0x19 ∨ row.1 = 0x1B then arbitrate (s.answered p r.tag result []) else s.answered p r.tag result []
    let portInRange := ∀ v : Byte, rest = [v] → v.toNat < 4
    (32 ≤ handle.toNat ∨ ¬portInRange → exec (row.2 p) s = .next (refused .field)) ∧
    (∀ h : Fin 32, handle = byteOf h.val → portInRange →
      (s.extent h = none → exec (row.2 p) s = .next (refused .noObject)) ∧
      ∀ e, s.extent h = some e → e.owner ≠ some p → exec (row.2 p) s = .next (refused .notOwner)))

/-! ### Host transfers -/

/-- SEEK: the cursor is set and the buffer EMPTY, when the port may read the extent and the offset lies in it; else
FIELD for a handle outside 0 to 31 or an offset above 2,097,151 (log 16), NO_OBJECT, NOT_GRANTED or RANGE. -/
def Obligations.SeekSetsTheCursor : Prop :=
  (∀ (p : PortId) (r : Request) (s : State) (handle : Byte) (offset : Nat), asksFor s p r 0x20 4 = true →
    offset < 16777216 → r.payload = handle :: encode24 offset → 32 ≤ handle.toNat ∨ 2097151 < offset →
    exec (.seek p) s = .next (s.answered p r.tag .field [])) ∧
  ∀ (p : PortId) (r : Request) (s : State) (h : Fin 32) (offset : Nat), asksFor s p r 0x20 4 = true →
    offset ≤ 2097151 → r.payload = byteOf h.val :: encode24 offset →
    (s.extent h = none → exec (.seek p) s = .next (s.answered p r.tag .noObject [])) ∧
    (∀ e, s.extent h = some e →
      (e.owner ≠ some p → e.grants.get p = .none →
        exec (.seek p) s = .next (s.answered p r.tag .notGranted [])) ∧
      (e.owner = some p ∨ e.grants.get p ≠ .none →
        (e.rows * 512 ≤ offset → exec (.seek p) s = .next (s.answered p r.tag .range [])) ∧
        (offset < e.rows * 512 → ∃ t, exec (.seek p) s = .next t ∧
          t = { s.answered p r.tag .ok [] with
            banks := banksGivenUp s p
            transfer := s.transfer.set p { cursor := some ⟨h, offset⟩, buffer := .empty, job := none } })))

/-- WRITE and UPDATE of the cursor's extent, by its owner, not CLEARING and inside the extent: the buffer is emptied, a
fetch into it given up, the row accesses are presented and the request goes on executing, unanswered, to their last completion.
They are refused, in this order, with FIELD for an operation other than AND, OR and XOR, NO_OBJECT for an absent cursor,
NOT_OWNER, FIELD for an Update whose cursor is no multiple of 4, BUSY while the extent is CLEARING, RANGE past its end. -/
def Obligations.WriteAndUpdatePresentTheirAccesses : Prop :=
  ∀ (p : PortId) (r : Request) (s : State), asks s p r = true → s.sessionState p = .joined →
    (r.code = 0x21 → 1 ≤ r.payload.length → r.payload.length ≤ 64 →
      let refused := fun result => exec (.write p) s = .next (arbitrate (s.answered p r.tag result []))
      ((s.transfer.get p).cursor = none → refused .noObject) ∧
      (∀ c e, (s.transfer.get p).cursor = some c → s.extent c.handle = some e →
        (e.owner ≠ some p → refused .notOwner) ∧
        (e.owner = some p → e.state = .clearing → refused .busy) ∧
        (e.owner = some p → e.state ≠ .clearing → e.rows * 512 < c.offset + r.payload.length → refused .range) ∧
        (e.owner = some p → e.state ≠ .clearing → c.offset + r.payload.length ≤ e.rows * 512 →
          exec (.write p) s = .next (arbitrate { s with
            ports := s.ports.set p { s.ports.get p with executing := true }
            transfer := s.transfer.set p
              { cursor := some c, buffer := .empty,
                job := some
                  { kind := .write r.payload.length, handle := c.handle, offset := c.offset,
                    parts := writeParts e.firstRow c.offset r.payload, damage := false, detached := false } }
            banks := banksGivenUp s p, arrivals := s.arrivals.tail })))) ∧
    (r.code = 0x23 →
      let refused := fun result => exec (.update p) s = .next (arbitrate (s.answered p r.tag result []))
      (∀ (v : Byte) (operand : Word), r.payload = v :: encode32 operand.toNat → 3 ≤ v.toNat → refused .field) ∧
      ∀ (op : UpdateOp) (operand : Word),
        r.payload = (match op with | .and => 0 | .or => 1 | .xor => 2) :: encode32 operand.toNat →
        ((s.transfer.get p).cursor = none → refused .noObject) ∧
        (∀ c e, (s.transfer.get p).cursor = some c → s.extent c.handle = some e →
          (e.owner ≠ some p → refused .notOwner) ∧
          (e.owner = some p → c.offset % 4 ≠ 0 → refused .field) ∧
          (e.owner = some p → c.offset % 4 = 0 → e.state = .clearing → refused .busy) ∧
          (e.owner = some p → c.offset % 4 = 0 → e.state ≠ .clearing → e.rows * 512 < c.offset + 4 →
            refused .range) ∧
          (e.owner = some p → c.offset % 4 = 0 → e.state ≠ .clearing → c.offset + 4 ≤ e.rows * 512 →
            exec (.update p) s = .next (arbitrate { s with
              ports := s.ports.set p { s.ports.get p with executing := true }
              transfer := s.transfer.set p
                { cursor := some c, buffer := .empty,
                  job := some
                    { kind := .update, handle := c.handle, offset := c.offset, damage := false, detached := false,
                      parts := [{ row := e.firstRow + c.offset / 512, status := .waiting,
                                  kind := .update (c.offset % 512) op operand }] } }
              banks := banksGivenUp s p, arrivals := s.arrivals.tail }))))

/-- READ of bytes inside the cursor's extent, by a port that may read it. A VALID buffer that holds them answers at
once, OK, the cursor advances and read-ahead starts from it; for a FETCHING one whose range contains them the Read waits;
in any other case the buffer is emptied, a fetch into it given up, and the Read's own accesses are presented, with a
damage mark when the extent is DAMAGED. It is refused, in this order, with FIELD for a byte count outside 1 to 64,
NO_OBJECT for an absent cursor, NOT_GRANTED, RANGE past the end of the extent. -/
def Obligations.ReadTakesTheBufferOrTheBanks : Prop :=
  (∀ (p : PortId) (r : Request) (s : State) (v : Byte), asksFor s p r 0x22 1 = true → r.payload = [v] →
    let refused := fun result => exec (.read p) s = .next (arbitrate (s.answered p r.tag result []))
    (v = 0 ∨ 64 < v.toNat → refused .field) ∧
    (1 ≤ v.toNat → v.toNat ≤ 64 →
      ((s.transfer.get p).cursor = none → refused .noObject) ∧
      ∀ c e, (s.transfer.get p).cursor = some c → s.extent c.handle = some e → e.owner ≠ some p →
        e.grants.get p = .none → refused .notGranted)) ∧
  ∀ (p : PortId) (r : Request) (s : State) (c : Cursor) (e : Extent) (n : Fin 65), asksFor s p r 0x22 1 = true →
    1 ≤ n.val → r.payload = [byteOf n.val] → (s.transfer.get p).cursor = some c → s.extent c.handle = some e →
    e.owner = some p ∨ e.grants.get p ≠ .none →
    (e.rows * 512 < c.offset + n.val → exec (.read p) s = .next (arbitrate (s.answered p r.tag .range []))) ∧
    (c.offset + n.val ≤ e.rows * 512 →
      (∀ start bytes, (s.transfer.get p).buffer = .valid c.handle start bytes → start ≤ c.offset →
        c.offset + n.val ≤ start + bytes.length →
        exec (.read p) s = .next (arbitrate
          { s.answered p r.tag .ok ((bytes.drop (c.offset - start)).take n.val) with
            transfer := s.transfer.set p
              { cursor := some { c with offset := c.offset + n.val }
                buffer := readAheadFrom c.handle e (c.offset + n.val)
                job := none } })) ∧
      (∀ start len parts, (s.transfer.get p).buffer = .fetching c.handle start len parts → start ≤ c.offset →
        c.offset + n.val ≤ start + len →
        exec (.read p) s = .next (arbitrate
          { s with
            ports := s.ports.set p { s.ports.get p with executing := true }
            transfer := s.transfer.set p
              { s.transfer.get p with
                job := some
                  { kind := .readBuffered n.val, handle := c.handle, offset := c.offset, parts := [],
                    damage := decide (e.state = .damaged), detached := false } }
            arrivals := s.arrivals.tail })) ∧
      ((∀ start bytes, (s.transfer.get p).buffer = .valid c.handle start bytes →
          ¬(start ≤ c.offset ∧ c.offset + n.val ≤ start + bytes.length)) →
        (∀ start len parts, (s.transfer.get p).buffer = .fetching c.handle start len parts →
          ¬(start ≤ c.offset ∧ c.offset + n.val ≤ start + len)) →
        exec (.read p) s = .next (arbitrate
          { s with
            ports := s.ports.set p { s.ports.get p with executing := true }
            transfer := s.transfer.set p
              { cursor := some c, buffer := .empty,
                job := some
                  { kind := .read n.val, handle := c.handle, offset := c.offset,
                    parts := readParts e.firstRow c.offset n.val,
                    damage := decide (e.state = .damaged), detached := false } }
            banks := banksGivenUp s p
            arrivals := s.arrivals.tail })))

/-- Work divides at the 512-byte boundaries of the extent's rows: extent byte b lies in global row first row + b div
512, at byte b mod 512. The parts of a read name every byte once, in order; those of a write give each its data byte.
There is one part to a row, by rising rows, and each waits. -/
def Obligations.WorkDividesAtRowBoundaries : Prop :=
  (∀ firstRow start len : Nat,
    (readParts firstRow start len).flatMap (fun t => match t.kind with
      | .read lo n => (List.range n).map fun i => (t.row, lo + i)
      | _ => []) = (List.range len).map fun i => (firstRow + (start + i) / 512, (start + i) % 512)) ∧
  (∀ (firstRow start : Nat) (data : List Byte),
    (writeParts firstRow start data).flatMap (fun t => match t.kind with
      | .write lo bytes => bytes.zipIdx.map fun b => (t.row, lo + b.2, b.1)
      | _ => []) = data.zipIdx.map fun b => (firstRow + (start + b.2) / 512, (start + b.2) % 512, b.1)) ∧
  (∀ (parts : List Part) (firstRow start len : Nat) (data : List Byte),
    parts = readParts firstRow start len ∨ parts = writeParts firstRow start data →
    (parts.Pairwise fun t u => t.row < u.row) ∧ ∀ t ∈ parts, t.status = .waiting)

/-! ### The palette -/

/-- CLAIM_PALETTE and RELEASE_PALETTE. A claim within the quota takes the lowest run of free blocks that begins at a
multiple of the alignment, and changes only their owner; a release of owned blocks that no OWNED slot of the port uses
frees them, clears their shadow entries and dirty flags, and leaves their live entries to be cleared. A count, alignment
or range of blocks outside its range is answered FIELD. -/
def Obligations.PaletteBlocksAreClaimedAndReleased : Prop :=
  ∀ (p : PortId) (r : Request) (s : State),
    (∀ (count : Nat) (alignment : Nat), asksFor s p r 0x28 2 = true → 1 ≤ count → count ≤ 64 →
      alignment = 1 ∨ alignment = 16 → r.payload = [byteOf count, byteOf alignment] →
      let fits := fun b : Nat => b % alignment = 0 ∧ b + count ≤ 64 ∧
        ∀ i : Fin 64, b ≤ i.val → i.val < b + count → (s.block i).owner = none
      ((s.quotas p).blocks < blocksOwned s p + count →
        exec (.claimPalette p) s = .next (s.answered p r.tag .quota [])) ∧
      (blocksOwned s p + count ≤ (s.quotas p).blocks →
        ((∀ b : Fin 64, ¬fits b.val) → exec (.claimPalette p) s = .next (s.answered p r.tag .noSpace [])) ∧
        (∀ b : Fin 64, fits b.val → (∀ c, c < b → ¬fits c.val) →
          exec (.claimPalette p) s = .next
            ({ s with palette := tabulate fun i =>
                if b.val ≤ i.val ∧ i.val < b.val + count then { s.block i with owner := some p }
                else s.block i }.answered p r.tag .ok [byteOf b.val])))) ∧
    (∀ (first : Fin 64) (count : Nat), asksFor s p r 0x29 2 = true → 1 ≤ count → first.val + count ≤ 64 →
      r.payload = [byteOf first.val, byteOf count] →
      let inside := fun i : Fin 64 => first.val ≤ i.val ∧ i.val < first.val + count
      let used := ∃ (l : Fin 16) (d : Descriptor) (b i : Fin 64), s.slot l = .held .owned p d ∧
        d.paletteBase = some b ∧ inside i ∧
        (d.format = .index4 ∧ i = b ∨ d.format = .index8 ∧ b.val ≤ i.val ∧ i.val ≤ b.val + 15)
      ((∃ i, inside i ∧ (s.block i).owner ≠ some p) →
        exec (.releasePalette p) s = .next (s.answered p r.tag .notOwner [])) ∧
      ((∀ i, inside i → (s.block i).owner = some p) →
        (used → exec (.releasePalette p) s = .next (s.answered p r.tag .inUse [])) ∧
        (¬used → exec (.releasePalette p) s = .next
          ({ s with palette := tabulate fun i =>
              if first.val ≤ i.val ∧ i.val < first.val + count then
                { s.block i with
                  owner := none, shadow := Vector.replicate 16 0, dirty := false, clearPending := true }
              else s.block i }.answered p r.tag .ok [])))) ∧
    (∀ v w : Byte, r.payload = [v, w] →
      (asksFor s p r 0x28 2 = true → v = 0 ∨ 64 < v.toNat ∨ w ≠ 1 ∧ w ≠ 16 →
        exec (.claimPalette p) s = .next (s.answered p r.tag .field [])) ∧
      (asksFor s p r 0x29 2 = true → 64 ≤ v.toNat ∨ w = 0 ∨ 64 < v.toNat + w.toNat →
        exec (.releasePalette p) s = .next (s.answered p r.tag .field [])))

/-- PALETTE_WRITE of the port's own block: the colours go to the shadow entries from the first entry on, the dirty flag
is set, and no live entry changes. A block outside 0 to 63 or an entry outside 0 to 15 is answered FIELD, another port's
block NOT_OWNER. -/
def Obligations.PaletteWriteChangesTheShadow : Prop :=
  (∀ (p : PortId) (r : Request) (s : State) (block first : Byte) (rest : List Byte), asks s p r = true →
    s.sessionState p = .joined → r.code = 0x2A → permittedLength 0x2A r.payload.length = true →
    r.payload = block :: first :: rest → 64 ≤ block.toNat ∨ 16 ≤ first.toNat →
    exec (.paletteWrite p) s = .next (s.answered p r.tag .field [])) ∧
  ∀ (p : PortId) (r : Request) (s : State) (b : Fin 64) (first : Fin 16) (colors : List Color),
    asks s p r = true → s.sessionState p = .joined → r.code = 0x2A → 1 ≤ colors.length → colors.length ≤ 16 →
    r.payload = byteOf b.val :: byteOf first.val :: colors.flatMap encodeColor →
    (16 < first.val + colors.length → exec (.paletteWrite p) s = .next (s.answered p r.tag .field [])) ∧
    (first.val + colors.length ≤ 16 → (s.block b).owner ≠ some p →
      exec (.paletteWrite p) s = .next (s.answered p r.tag .notOwner [])) ∧
    (first.val + colors.length ≤ 16 → (s.block b).owner = some p → ∃ shadow : Vector Color 16,
      (∀ i : Fin 16, shadow[i] = if first.val ≤ i.val then
        (colors[i.val - first.val]?).getD (s.block b).shadow[i] else (s.block b).shadow[i]) ∧
      exec (.paletteWrite p) s = .next
        ((s.setBlock b { s.block b with shadow, dirty := true }).answered p r.tag .ok []))

/-! ### The frame -/

/-- Geometry and composition. The drawn columns of a layer on a line are those that lie on the panel, in the screen
rectangle and in the clip; it has none on a line outside its rectangle or clip. At a pixel the background stands where
no layer yields anything; put on what lies beneath, a solid yield takes the pixel, an inverting one complements it and a
transparent one leaves it. In fallback a layer yields its fill in its drawn columns. The layers come in ascending z, and
every pixel of a line is composed of its layers in that order. The pixel values stand in the line bytes as R210 says. -/
def Obligations.PixelsAreComposedInDepthOrder : Prop :=
  (∀ (d : Descriptor) (width line : Nat),
    let onLine := d.y - d.ay ≤ (line : Int) ∧ (line : Int) < d.y - d.ay + d.height ∧
      ∀ c, d.clip = some c → c.y0 ≤ line ∧ line ≤ c.y1
    let drawn := fun px : Nat => px < width ∧ d.x - d.ax ≤ (px : Int) ∧ (px : Int) < d.x - d.ax + d.width ∧
      ∀ c, d.clip = some c → c.x0 ≤ px ∧ px ≤ c.x1
    (layerSpan d width line = none ↔ ¬(onLine ∧ ∃ px, drawn px)) ∧
    (∀ k, layerSpan d width line = some k →
      (k.row : Int) = line - (d.y - d.ay) ∧ k.left = d.x - d.ax ∧
      ∀ px, (k.first ≤ px ∧ px ≤ k.last) ↔ drawn px)) ∧
  (∀ (palette : Vector PaletteBlock 64) (background : Color) (px : Nat),
    composePixel palette background [] px = background ∧
    (∀ (below : List DrawnLayer) (y : DrawnLayer),
      let beneath := composePixel palette background below px
      let shown := composePixel palette background (below ++ [y]) px
      (¬(y.span.first ≤ px ∧ px ≤ y.span.last) → shown = beneath) ∧
      (y.span.first ≤ px → px ≤ y.span.last →
        (y.fallback = true → shown = y.desc.fill) ∧
        (y.fallback = false →
          let v := pixelValue y.desc.format y.bytes (firstLineByte y.desc y.span) (y.span.column px)
          let keyed := ∃ key, y.desc.key = some key ∧ key.toNat = v
          (y.desc.format = .fill → shown = y.desc.fill) ∧
          (y.desc.format = .marker2 → shown = match y.desc.codeMap.entry v with
            | .transparent => beneath
            | .colour1 => y.desc.c1
            | .colour2 => y.desc.c2
            | .colour3 => y.desc.c3
            | .invert => ~~~beneath) ∧
          (y.desc.format ≠ .fill → y.desc.format ≠ .marker2 → keyed → shown = beneath) ∧
          (y.desc.format = .index4 ∨ y.desc.format = .index8 → ¬keyed →
            ∀ base (i : Fin 64) (j : Fin 16), y.desc.paletteBase = some base → 16 * base.val + v = 16 * i.val + j.val →
              shown = palette[i].live[j]) ∧
          (y.desc.format = .direct16 → ¬keyed → v < 65536 →
            shown.toNat =
              (v / 2048 * 8 + v / 8192) * 65536 + (v / 32 % 64 * 4 + v / 512 % 4) * 256 +
                (v % 32 * 8 + v / 4 % 8)))))) ∧
  (∀ layers : List DrawnLayer, (byDepth layers).Perm layers ∧
    (byDepth layers).Pairwise fun a b => a.desc.z ≤ b.desc.z) ∧
  (∀ (palette : Vector PaletteBlock 64) (background : Color) (layers : List DrawnLayer) (width : Nat),
    (composeLine palette background layers width).length = width ∧
    ∀ px, px < width → (composeLine palette background layers width)[px]? =
      some (composePixel palette background (byDepth layers) px)) ∧
  (∀ (bytes : List Byte) (base c : Nat),
    let lineByte := fun i => bytes.getD (i - base) 0
    let code := pixelValue .marker2 bytes base c
    (code < 4 ∧ code.testBit 1 = (lineByte (c / 4)).getLsbD (7 - 2 * (c % 4)) ∧
      code.testBit 0 = (lineByte (c / 4)).getLsbD (6 - 2 * (c % 4))) ∧
    (c % 2 = 0 → pixelValue .index4 bytes base c = ((lineByte (c / 2)).extractLsb' 4 4).toNat) ∧
    (c % 2 = 1 → pixelValue .index4 bytes base c = ((lineByte (c / 2)).extractLsb' 0 4).toNat) ∧
    pixelValue .index8 bytes base c = (lineByte c).toNat ∧
    pixelValue .direct16 bytes base c = (lineByte (2 * c) ++ lineByte (2 * c + 1)).toNat) ∧
  (∀ (d : Descriptor) (k : Span),
    (∀ px : Nat, k.left ≤ px → (k.column px : Int) = px - k.left) ∧
    firstLineByte d k = k.column k.first * pixelBits d.format / 8)

/-- LINE_ZERO_FETCH in the BLANK phase before its last line, and LINE_START in the ACTIVE phase before its last line.
The fetch for line 0 takes line records against the active width of the plan in force and draws up the fetch of every
drawn source layer. A line start composes the line from the line records and the bytes fetched, each marked layer and
each with a late fetch in fallback, feeds its pixels to the RUNNING windows whose rows include it, gives up the accesses
still to come, and draws up the next line's fetch. The fetch list holds each layer's accesses in byte order, from the
first to the last byte that holds a bit of a drawn column, layers in ascending z. ACCESS_COMPLETION of a scan access hands
the bytes the row then holds to its part of the fetch list; one no longer wanted hands them to none.
That the line is composed whole at its start (log 18), and that the two are taken on any blank line before the last and
at any pixel time (log 23), is the model's choice. -/
def Obligations.LinesAreFetchedAndComposed : Prop :=
  (∀ s : State, ready s = true →
    (s.scan.phase = .blank → s.scan.lineNo + 1 < s.scan.timing.vblank →
      ∃ records, recordsOf s s.session.plan.timing.width 0 records ∧
        exec .lineZeroFetch s = .next (arbitrate
          { s with scan := { s.scan with
              lineNo := s.scan.timing.vblank - 1, pixelTime := 0, records
              fetch := fetchList s records (Vector.replicate 16 false) } })) ∧
    (s.scan.phase = .active → s.scan.lineNo + 1 < s.scan.timing.height →
      let line := s.scan.lineNo + 1
      let fails := late s.scan.fetch
      let pixels := composeLine s.palette s.session.plan.background
        (lineLayers s.scan.records s.scan.fetch fun l => s.scan.marks[l] || fails l) s.scan.timing.width
      ∃ u, exec .lineStart s = .next (arbitrate u) ∧
        (∀ n, (s.window n = none → u.window n = none) ∧
          ∀ w, s.window n = some w → ∃ w', u.window n = some w' ∧
            ((∀ l, fails l = false) → w'.taint = w.taint) ∧
            w' = { w with
              taint := w'.taint
              register := if w.state = .running ∧ w.settings.y ≤ line ∧ line < w.settings.y + w.settings.h then
                signLine w.settings pixels w.register else w.register }) ∧
        (line + 1 < s.scan.timing.height → recordsOf s s.scan.timing.width (line + 1) u.scan.records ∧
          u.scan.fetch = fetchList s u.scan.records s.scan.marks) ∧
        (line + 1 = s.scan.timing.height → u.scan.fetch = []) ∧
        ((∀ l, fails l = false) → u.ports = s.ports ∧ u.scan.underruns = s.scan.underruns) ∧
        u = { s with
          scan := { s.scan with
            lineNo := line, pixelTime := 0, line := pixels, records := u.scan.records, fetch := u.scan.fetch,
            underruns := u.scan.underruns }
          check := { s.check with windows := u.check.windows }
          banks := banksAfterLine s, ports := u.ports, arrivals := s.arrivals.tail })) ∧
  (∀ (s : State) (records : Vector (Option LineRecord) 16) (marks : Vector Bool 16),
    (∀ l : Fin 16, (fetchList s records marks).filter (fun f => decide (f.slot = l)) =
      match records[l] with
      | some { live := d, span := some k } =>
        if d.format = .fill ∨ marks[l] = true then [] else (layerFetch s d k).map fun part => { slot := l, part }
      | _ => []) ∧
    (fetchList s records marks).Pairwise fun f g => ∀ r r', records[f.slot] = some r → records[g.slot] = some r' →
      r.live.z ≤ r'.live.z) ∧
  (∀ (s : State) (d : Descriptor) (k : Span) (o : Source) (e : Extent), d.format ≠ .fill → d.source = some o →
    s.extent o.handle = some e →
    let first := k.column k.first * pixelBits d.format / 8
    let last := ((k.column k.last + 1) * pixelBits d.format + 7) / 8 - 1
    layerFetch s d k = readParts e.firstRow (o.offset + k.row * o.stride + first) (last + 1 - first)) ∧
  (∀ (s : State) (b : BankId) (a : Access) (lo len : Nat), ready s = true → (s.banks.get b).inFlight = some a →
    a.requester = .scan → a.kind = .read lo len →
    ∃ v : RefreshBank,
      let completed := fun fetch : List FetchPart => { s with
        scan := { s.scan with fetch }, refresh := s.refresh.set b v
        banks := s.banks.set b { s.banks.get b with inFlight := none }, arrivals := s.arrivals.tail }
      (a.wanted = true → ∀ before f after, s.scan.fetch = before ++ f :: after →
        f.part.status = .granted → bankOfRow f.part.row = b →
        (∀ g ∈ before, ¬(g.part.status = .granted ∧ bankOfRow g.part.row = b)) →
        exec (.accessCompletion b) s = .next (arbitrate (completed (before ++
          { f with part := { f.part with status := .done (s.store.bytesAt a.row lo len) } } :: after)))) ∧
      (a.wanted = false → exec (.accessCompletion b) s = .next (arbitrate (completed s.scan.fetch))))

/-- A line start at which fetches are late: each slot with an access of its fetch not completed enters the underrun set;
the first time in the frame UNDERRUN goes to the slot's owner, with the frame number, slots in ascending order (log 6);
every RUNNING window that the drawn columns of such a slot meet on the line is tainted, every time.
That the line start is taken at any pixel time of the line before is the model's choice (log 23). -/
def Obligations.UnderrunIsReportedAndTaints : Prop :=
  ∀ s : State, ready s = true → s.scan.phase = .active → s.scan.lineNo + 1 < s.scan.timing.height →
    let fails := late s.scan.fetch
    ∃ t, exec .lineStart s = .next t ∧
      (∀ l : Fin 16, fails l = true ↔ ∃ f ∈ s.scan.fetch, f.slot = l ∧ ∀ bytes, f.part.status ≠ .done bytes) ∧
      (∀ l : Fin 16, t.scan.underruns[l] = (s.scan.underruns[l] || fails l)) ∧
      (∀ p, t.ports.get p = takeUnderruns s p s.scan.frameCounter fun l => fails l && !s.scan.underruns[l]) ∧
      (∀ n w, s.window n = some w → ∃ w', t.window n = some w' ∧ w'.taint =
        (w.taint || decide (w.state = .running) && underrunMeets s (s.scan.lineNo + 1) fails w.settings))

/-- FRAME_START at the end of the BLANK phase: the frame counter rises by one, the timing and output of the plan in
force govern, frame fallback marks are set for the slots of source formats whose extent is CLEARING or DAMAGED, ARMED
windows run, every RUNNING window starts afresh with the taint of the coming frame and of a DARK frame, and the lease
counters and the frames remaining of a vote run down. Line 0 is taken as any other: the accesses of marked slots are
withdrawn and no underrun; a slot not marked whose fetch is late is the first of the new underrun set, is reported with
the new frame number and taints; the line is composed with both in fallback, and line 1's fetch is drawn up.
That line 0 is composed whole and fed to the windows at the frame start (log 18), and that one owner's UNDERRUN events
come in ascending slot order (log 6), is the model's choice.
An expiry or a time-out is a command of its own (log 4), so that what it sends arrives behind the UNDERRUN events of line
0 is the model's choice (log 35); that the frame start is taken at any pixel time of the last
blank line is the model's choice (log 23). -/
def Obligations.FrameStartBeginsTheFrame : Prop :=
  ∀ s : State, ready s = true → s.scan.phase = .blank → s.scan.lineNo + 1 = s.scan.timing.vblank →
    ∃ u, exec .frameStart s = .next (arbitrate u) ∧
      let timing := s.session.plan.timing
      let fails := fun l : Fin 16 => late s.scan.fetch l && !u.scan.marks[l]
      let pixels := composeLine s.palette s.session.plan.background
        (lineLayers s.scan.records (s.scan.fetch.filter fun f => !u.scan.marks[f.slot])
          fun l => u.scan.marks[l] || fails l) timing.width
      (∀ l : Fin 16, u.scan.marks[l] = true ↔ ∃ state p d o e, s.slot l = .held state p d ∧ d.source = some o ∧
        d.format ≠ .fill ∧ s.extent o.handle = some e ∧ e.state ≠ .ready) ∧
      (∀ l : Fin 16, u.scan.underruns[l] = fails l) ∧
      (∀ p, u.ports.get p = takeUnderruns s p (s.scan.frameCounter + 1) fails) ∧
      (1 < timing.height → recordsOf s timing.width 1 u.scan.records ∧
        u.scan.fetch = fetchList s u.scan.records u.scan.marks) ∧
      (timing.height = 1 → u.scan.fetch = []) ∧
      (∀ n, (s.window n = none → u.window n = none) ∧
        ∀ w, s.window n = some w →
          (w.state = .armed ∨ w.state = .running → u.window n = some { w with
            state := .running, nextTaint := false
            taint := w.nextTaint || decide (s.session.plan.output = .dark) || underrunMeets s 0 fails w.settings
            register := if w.settings.y = 0 ∧ 0 < w.settings.h then signLine w.settings pixels 0xFFFFFF
              else 0xFFFFFF }) ∧
          (w.state = .idle ∨ w.state = .halted → u.window n = some { w with nextTaint := false })) ∧
      (∀ p, u.session.records.get p =
        let record := s.session.records.get p
        if record.state = .joined ∧ record.lease ≠ 0 then { record with counter := record.counter - 1 }
        else record) ∧
      u = { s with
        scan := { u.scan with
          timing, phase := .active, lineNo := 0, pixelTime := 0, frameCounter := s.scan.frameCounter + 1
          output := s.session.plan.output, line := pixels }
        check := { windows := u.check.windows, moved := false }
        session := { s.session with
          records := u.session.records
          planState := match s.session.planState with
            | .voting q => .voting { q with remaining := q.remaining - 1 }
            | q => q }
        banks := banksAfterLine s, ports := u.ports, arrivals := s.arrivals.tail }

/-- The output pins while RESET_N is high: PCLK runs; the pixel of the line and DE high in the active pixels of a LIT
frame, and 0 and DE low elsewhere; HSYNC and VSYNC low where R30 says; ATN_n low while the outbound queue holds a frame;
SDO high while SEL_n is high, and carrying the bytes of the frame, most significant bit first and 00h after the last,
during a transaction. -/
def Obligations.PinsFollowTheState : Prop :=
  ∀ s : State, s.resetN = true →
    let c := s.scan
    let k := panelPins s
    let shown := (c.phase = .active ∧ c.pixelTime < c.timing.width) ∧ c.output = .lit
    k.clock = true ∧
    (shown → k.de = true ∧ ∀ v : Color, c.line[c.pixelTime]? = some v →
      v.toNat = 65536 * k.pr.toNat + 256 * k.pg.toNat + k.pb.toNat) ∧
    (¬shown → k.de = false ∧ k.pr = 0 ∧ k.pg = 0 ∧ k.pb = 0) ∧
    (k.hsync = false ↔ c.timing.width + 8 ≤ c.pixelTime ∧ c.pixelTime ≤ c.timing.width + 23) ∧
    (k.vsync = false ↔ c.phase = .blank ∧ (c.lineNo = 1 ∨ c.lineNo = 2)) ∧
    ∀ p, (atnPin s p = false ↔ (s.ports.get p).outbound ≠ []) ∧
      ((s.ports.get p).selHigh = true → ∀ i bit, sdoHigh s p i bit = true) ∧
      ∀ t, (s.ports.get p).selHigh = false → (s.ports.get p).transaction = some t →
        (∀ i bit, bit < 8 → i < t.bytes.length → sdoHigh s p i bit = (t.bytes.getD i 0).getLsbD (7 - bit)) ∧
        ∀ i bit, t.bytes.length ≤ i → sdoHigh s p i bit = false

/-- The fit checks of a touched slot: it fails with the first of DEPTH_CLASH, OUT_OF_BAND, FORMAT, SOURCE_GONE,
NOT_GRANTED, SOURCE_RANGE and PALETTE that its projection runs into, and passes when it runs into none. A batch passes
when every touched slot that does not end retired passes and the port owns every published block; else it reports the
lowest slot that fails, or when none does the lowest block, with the number of the last edit that names it. -/
def Obligations.FitChecksOfASlot : Prop :=
  (∀ (s : State) (p : PortId) (edits : List Edit) (l : Fin 16) (live d : Descriptor),
    let clash := ∃ m, m ≠ l ∧ projectedDepth s p edits m = some d.z
    let inside := ∃ b, (s.quotas p).band = some b ∧ b.low ≤ d.z.val ∧ d.z.val ≤ b.high
    let format := (d.format = .fill ∨ d.source ≠ none) ∧
      (d.format = .index4 → d.paletteBase ≠ none) ∧
      (d.format = .index8 → ∃ b, d.paletteBase = some b ∧ b.val % 16 = 0) ∧
      (d.format = .marker2 → d.width ≤ 64 ∧ d.height ≤ 64)
    let gone := ∃ o, d.source = some o ∧ s.extent o.handle = none
    let granted := ∀ o e, d.source = some o → s.extent o.handle = some e →
      e.owner = some p ∨ e.grants.get p = .granted ∨
        (e.grants.get p = .withdrawing ∧ live.source.map Source.handle = some o.handle)
    let line := (d.width * pixelBits d.format + 7) / 8
    let fits := ∀ o e, d.source = some o → s.extent o.handle = some e →
      (d.format = .fill → o.offset < e.rows * 512) ∧
      (d.format ≠ .fill → line ≤ o.stride ∧ o.offset + (d.height - 1) * o.stride + line ≤ e.rows * 512)
    let owned := ∀ b : Fin 64, ∀ base, d.paletteBase = some base →
      (d.format = .index4 ∧ b = base ∨ d.format = .index8 ∧ base.val ≤ b.val ∧ b.val ≤ base.val + 15) →
      (s.block b).owner = some p
    let answer := slotFailure s p edits l live d
    (clash → answer = some .depthClash) ∧
    (¬clash → ¬inside → answer = some .outOfBand) ∧
    (¬clash → inside → ¬format → answer = some .format) ∧
    (¬clash → inside → format → gone → answer = some .sourceGone) ∧
    (¬clash → inside → format → ¬gone → ¬granted → answer = some .notGranted) ∧
    (¬clash → inside → format → ¬gone → granted → ¬fits → answer = some .sourceRange) ∧
    (¬clash → inside → format → ¬gone → granted → fits → ¬owned → answer = some .palette) ∧
    (¬clash → inside → format → ¬gone → granted → fits → owned → answer = none)) ∧
  (∀ (s : State) (p : PortId) (edits : List Edit),
    let fails := fun (l : Fin 16) (reason : RejectReason) => ∃ d, s.slot l = .held .owned p d ∧
      (∃ e ∈ edits, e.slot? = some l) ∧ (project l d edits).retire = false ∧
      slotFailure s p edits l d (project l d edits).desc = some reason
    let foreign := fun b : Fin 64 => .publish b ∈ edits ∧ (s.block b).owner ≠ some p
    (∀ l z, projectedDepth s p edits l = some z ↔ ∃ d, s.slot l = .held .owned p d ∧
      (project l d edits).retire = false ∧ (project l d edits).desc.z = z) ∧
    (batchFailure s p edits = none ↔ (∀ l reason, ¬fails l reason) ∧ ∀ b, ¬foreign b) ∧
    (∀ l reason before e after, fails l reason → (∀ m other, m < l → ¬fails m other) →
      edits = before ++ e :: after → e.slot? = some l → (∀ x ∈ after, x.slot? ≠ some l) →
      batchFailure s p edits = some { item := .slot l, editIndex := before.length + 1, reason }) ∧
    (∀ b before after, (∀ l reason, ¬fails l reason) → foreign b → (∀ c, c < b → ¬foreign c) →
      edits = before ++ .publish b :: after → .publish b ∉ after →
      batchFailure s p edits = some { item := .block b, editIndex := before.length + 1, reason := .palette }))

/-- BLANK_START at the end of the ACTIVE phase takes every batch that is CLOSED and due: no target, or a target that
the next frame number has reached in the half-range order. Its buffer becomes EMPTY; with a fit check failed no slot
changes, else each touched slot takes its projection or, retired, becomes FREE. Published blocks take their shadow
entries. For each batch taken the port is sent BATCH_APPLIED, with the next frame number and the edit count, or
BATCH_REJECTED, with the failure reported.
That the blank start is taken at any pixel time of the last active line is the model's choice (log 23). -/
def Obligations.BlankStartTakesDueBatches : Prop :=
  ∀ s : State, ready s = true → s.scan.phase = .active → s.scan.lineNo + 1 = s.scan.timing.height →
    let due := fun p => (s.commit.batches.get p).state = .closed ∧
      ∀ f, (s.commit.batches.get p).target = some f → (s.scan.frameCounter + 1 - f).toNat < 32768
    let edits := fun p => (s.commit.batches.get p).edits
    let applies := fun p => due p ∧ batchFailure s p (edits p) = none
    ∃ t, exec .blankStart s = .next t ∧ t = arbitrate (blankAct s).settle ∧ (blankAct s).st.ports = s.ports ∧
      (∃ sends : PortId → List Msg, (blankAct s).sent .commit = allPorts.flatMap sends ∧ ∀ p,
        (¬due p → sends p = []) ∧
        (applies p → sends p = [.event p (.batchApplied p (s.scan.frameCounter + 1) (edits p).length)]) ∧
        (∀ r, due p → batchFailure s p (edits p) = some r →
          sends p = [.event p (.batchRejected p r.item r.editIndex r.reason)])) ∧
      (∀ p, (due p → t.commit.batches.get p = { state := .empty, edits := [], target := none }) ∧
        (¬due p → t.commit.batches.get p = s.commit.batches.get p)) ∧
      (∀ l, s.slot l = .free → t.slot l = .free) ∧
      (∀ l p d, s.slot l = .held .owned p d →
        let touched := ∃ e ∈ edits p, e.slot? = some l
        (¬(applies p ∧ touched) → t.slot l = s.slot l) ∧
        (applies p → touched → t.slot l =
          if (project l d (edits p)).retire then .free
          else .held .owned p (project l d (edits p)).desc)) ∧
      (∀ b, (∃ p, applies p ∧ .publish b ∈ edits p) → (∀ o, (s.block b).owner = some o → s.sessionState o ≠ .draining) →
        (t.block b).live = (s.block b).shadow ∧ (t.block b).shadow = (s.block b).shadow ∧
        (t.block b).dirty = false ∧ (t.block b).owner = (s.block b).owner) ∧
      (∀ b, (¬∃ p, applies p ∧ .publish b ∈ edits p) →
        (∀ o, (s.block b).owner = some o → s.sessionState o ≠ .draining) →
        t.block b = if (s.block b).clearPending then
          { s.block b with live := Vector.replicate 16 0, clearPending := false } else s.block b) ∧
      (∀ h e, s.extent h = some e → ∀ e', t.extent h = some e' → ∀ p, e'.counts.get p =
        e.counts.get p + drawing t.commit.slots p h - drawing s.commit.slots p h)

/-- BLANK_START ends what ends there: the ACTIVE phase, the teardown of every DRAINING port (its RETIRING slots FREE, its
palette blocks free with both copies cleared, its grants NONE, its session ABSENT with nothing kept), and a proposal
being adopted: the plan takes the proposed one's place when every JOINED or DRAINING port's usage fits it, and stays
otherwise; the JOINED ports are sent PLAN_ADOPTED with the digest, or PLAN_FAILED with the reason and the first port that
does not fit. A WITHDRAWING grant whose count falls to 0 ends, with GRANT_ENDED to the grantee and the owner, or of an
orphan to the grantee alone unless it is the former owner; an orphan with every count at 0 is freed. The frame counter,
the timing in force, the store and the refresh state stay.
That the GRANT_ENDED events of one blank start come by ascending handle and, for one extent, by ascending grantee is the
model's choice (log 6).
That the blank start is taken at any pixel time of the last active line is the model's choice (log 23). -/
def Obligations.BlankStartEndsTeardownsAndAdopts : Prop :=
  ∀ s : State, ready s = true → s.scan.phase = .active → s.scan.lineNo + 1 = s.scan.timing.height →
    ∃ t, exec .blankStart s = .next t ∧ t = arbitrate (blankAct s).settle ∧ (blankAct s).st.ports = s.ports ∧
      t.scan.phase = .blank ∧ t.scan.lineNo = 0 ∧ t.scan.pixelTime = 0 ∧
      t.scan.frameCounter = s.scan.frameCounter ∧ t.scan.timing = s.scan.timing ∧
      t.store = s.store ∧ t.refresh = s.refresh ∧
      (∀ p, s.sessionState p ≠ .draining → t.session.records.get p = s.session.records.get p) ∧
      (∀ p, s.sessionState p = .draining →
        t.session.records.get p = { state := .absent, lease := 0, counter := 0, view := .live, cause := none } ∧
        (∀ l d, s.slot l = .held .retiring p d → t.slot l = .free) ∧
        (∀ b, (s.block b).owner = some p → t.block b =
          { owner := none, live := Vector.replicate 16 0, shadow := Vector.replicate 16 0, dirty := false,
            clearPending := false }) ∧
        (∀ h e, t.extent h = some e → e.grants.get p = .none)) ∧
      (∀ l p d, s.slot l = .held .retiring p d → s.sessionState p ≠ .draining → t.slot l = s.slot l) ∧
      (match s.session.planState with
        | .adopting q => t.session.planState = .steady ∧
          let within := fun p =>
            slotsHeld t p ≤ (q.plan.quotas.get p).layers ∧ extentsOwned t p ≤ (q.plan.quotas.get p).extents ∧
            rowsOwned t p ≤ (q.plan.quotas.get p).rows ∧ blocksOwned t p ≤ (q.plan.quotas.get p).blocks ∧
            windowsOwned t p ≤ (q.plan.quotas.get p).windows
          let placed := fun p =>
            (∀ l state d, t.slot l = .held state p d → inBand d.z.val (q.plan.quotas.get p).band = true) ∧
            ∀ n w, t.window n = some w → w.owner = p →
              w.settings.x + w.settings.w ≤ q.plan.timing.width ∧ w.settings.y + w.settings.h ≤ q.plan.timing.height
          let fits := fun p => s.sessionState p ≠ .absent → within p ∧ placed p
          ((∀ p, fits p) → t.session.plan = q.plan ∧
            (blankAct s).sent .plan =
              (allPorts.filter s.joined).map fun v => .event v (.planAdopted (planDigest q.plan))) ∧
          (∀ p, ¬fits p → (∀ v, portNumber v < portNumber p → fits v) → t.session.plan = s.session.plan ∧
            ∃ reason, (within p → reason = .geometry) ∧ (¬within p → reason = .overQuota) ∧
              (blankAct s).sent .plan = (allPorts.filter s.joined).map fun v => .event v (.planFailed reason p))
        | state => t.session.planState = state ∧ t.session.plan = s.session.plan ∧ (blankAct s).sent .plan = []) ∧
      (blankAct s).sent .session =
        (allPorts.filter fun p => decide (s.sessionState p = .draining)).map Msg.sessionEnd ∧
      (∀ h, s.extent h = none → t.extent h = none) ∧
      (∃ sends : Fin 32 → List Msg, (blankAct s).sent .extents = (List.finRange 32).flatMap sends ∧
        (∀ h, s.extent h = none → sends h = []) ∧
        ∀ h e, s.extent h = some e →
          let count := fun p => e.counts.get p + drawing t.commit.slots p h - drawing s.commit.slots p h
          let ends := fun p => decide (e.grants.get p = .withdrawing ∧ e.counts.get p ≠ 0 ∧ count p = 0)
          let grant := fun p => if ends p = true ∨ s.sessionState p = .draining then GrantState.none else e.grants.get p
          let freed := e.owner = none ∧ ∀ p, count p = 0
          let endings := allPorts.flatMap fun p =>
            if ends p then match e.owner with
              | some o => [Msg.event p (.grantEnded h o), .event o (.grantEnded h p)]
              | none => if e.allocator = p then [] else [.event p (.grantEnded h e.allocator)]
            else []
          (¬freed → sends h = endings ∧
            t.extent h = some { e with counts := PerPort.tab count, grants := PerPort.tab grant }) ∧
          (freed → t.extent h = none ∧ sends h = endings ++
            (allPorts.filter fun p => decide (grant p = .granted)).map fun p => .event p (.grantEnded h e.allocator)) ∧
          ∀ p, ends p = true ∨ freed →
            (∀ c, (t.transfer.get p).cursor = some c → c.handle ≠ h) ∧ (t.transfer.get p).buffer.handle? ≠ some h)

/-- A RUNNING window at the blank start: INDETERMINATE when tainted, LEARNED without an expected value, else PASS or
FAIL; the counters are kept as R94 says, the window halts when its consecutive fails reach its threshold, and otherwise
goes to IDLE in mode ONE_SHOT and runs on in CONTINUOUS. A window that is not RUNNING stays as it is. Windows are taken
in ascending number: with report RESULTS the owner is sent CHECK_RESULT, and then, at the threshold, CHECK_FAULT goes to
the owner or, with scope ALL, to every JOINED port.
That the blank start is taken at any pixel time of the last active line is the model's choice (log 23). -/
def Obligations.RunningWindowsFinish : Prop :=
  ∀ s : State, ready s = true → s.scan.phase = .active → s.scan.lineNo + 1 = s.scan.timing.height →
    ∃ t, exec .blankStart s = .next t ∧ t = arbitrate (blankAct s).settle ∧ (blankAct s).st.ports = s.ports ∧
      ∃ sends : Fin 8 → List Msg, (blankAct s).sent .check = (List.finRange 8).flatMap sends ∧ ∀ n,
      (s.window n = none → t.window n = none ∧ sends n = []) ∧
      ∀ w, s.window n = some w →
        (w.state ≠ .running → t.window n = some w ∧ sends n = []) ∧
        (w.state = .running →
          let result : WinResult :=
            if w.taint then .indeterminate
            else match w.expected with
              | none => .learned
              | some v => if w.register = v then .pass else .fail
          let fails := match result with
            | .pass => 0
            | .fail => w.consecutive + 1
            | _ => w.consecutive
          t.window n = some { w with
            expected := if result = .learned then some w.register else w.expected
            lastSignature := some w.register
            lastResult := result
            consecutive := fails
            total := if result = .fail then min 65535 (w.total + 1) else w.total
            checked := min 65535 (w.checked + 1)
            state := if w.settings.threshold ≤ fails then .halted
              else if w.settings.mode = .oneShot then .idle else .running } ∧
          sends n =
            (match w.settings.report with
              | .results => [.event w.owner (.checkResult n result w.register)]
              | .faults => []) ++
            if w.settings.threshold ≤ fails then
              (match w.settings.scope with
                | .owner => [w.owner]
                | .all => allPorts.filter s.joined).map fun p => .event p (.checkFault n w.owner fails w.register)
            else [])

/-! ### Banks and refresh -/

/-- A grant decision: none while an access is in flight; else refresh first with 4 or more rows owed, then the scan
engine, then refresh, then the first port after the pointer that has an access waiting. A port with both kinds waiting
is granted the kind other than its mark; the pointer then names the port and its mark the kind granted. Refresh is
granted the row of its request; the scan engine the first access of the line's fetch that waits at the bank; a transfer
unit the first that waits there of the transfer's own accesses, then of the fetch's; a clear engine with no write in
flight the row at the clear progress of the extent at the head of its list, written whole with zeros. Nothing else
changes. The idle banks decide in ascending number after all that one event has requested (log 19). -/
def Obligations.GrantsFollowTheClasses : Prop :=
  (∀ s : State, arbitrate s = decideGrant (decideGrant (decideGrant (decideGrant s .b0) .b1) .b2) .b3) ∧
  ∀ (s : State) (b : BankId),
    (∀ a, (s.banks.get b).inFlight = some a → decideGrant s b = s) ∧
    ((s.banks.get b).inFlight = none →
      let bank := s.banks.get b
      let k := s.refresh.get b
      let granted := fun (q : Requester) (row : Nat) (kind : AccessKind) (v : Bank) =>
        s.setBank b { v with inFlight := some { requester := q, row, kind, wanted := true } }
      let turned := fun (p : PortId) (v : TurnKind) => { bank with pointer := p, marks := bank.marks.set p v }
      let here := fun x : Part => x.status = .waiting ∧ bankOfRow x.row = b
      let own := fun p => match (s.transfer.get p).job with
        | some j => j.parts
        | none => []
      let ahead := fun p => match (s.transfer.get p).buffer with
        | .fetching _ _ _ l => l
        | _ => []
      let transfers := fun p => ∃ x ∈ own p ++ ahead p, here x
      let clears := fun p g => (∀ c a, (s.banks.get c).inFlight = some a → a.requester ≠ .clear p) ∧
        ∃ h rest e, s.extents.clearLists.get p = h :: rest ∧ s.extent h = some e ∧ e.progress < e.rows ∧
          g = e.firstRow + e.progress ∧ bankOfRow g = b
      let waits := fun p => transfers p ∨ ∃ g, clears p g
      let noFetch := ∀ f ∈ s.scan.fetch, ¬here f.part
      (∀ r, k.request = some r → 4 ≤ k.owed.length ∨ noFetch →
        decideGrant s b = granted .refresh (4 * r.val + bankNumber b) .refresh bank) ∧
      (∀ before f after, k.request = none ∨ k.owed.length < 4 →
        s.scan.fetch = before ++ f :: after → here f.part → (∀ x ∈ before, ¬here x.part) →
        decideGrant s b = { granted .scan f.part.row f.part.kind bank with
          scan := { s.scan with
            fetch := before ++ { f with part := { f.part with status := .granted } } :: after } }) ∧
      (k.request = none → noFetch →
        (∀ p, (waits p ∧ ∀ q ∈ (turnOrder bank.pointer).takeWhile (fun q => decide (q ≠ p)), ¬waits q) →
          (transfers p → (∀ g, ¬clears p g) ∨ bank.marks.get p = .clear →
            (∀ j before x after, (s.transfer.get p).job = some j → j.parts = before ++ x :: after → here x →
              (∀ y ∈ before, ¬here y) →
              decideGrant s b = (granted (.transfer p) x.row x.kind (turned p .transfer)).setTransfer p
                { s.transfer.get p with
                  job := some { j with parts := before ++ { x with status := .granted } :: after } }) ∧
            (∀ h start len before x after, (∀ y ∈ own p, ¬here y) →
              (s.transfer.get p).buffer = .fetching h start len (before ++ x :: after) → here x →
              (∀ y ∈ before, ¬here y) →
              decideGrant s b = (granted (.transfer p) x.row x.kind (turned p .transfer)).setTransfer p
                { s.transfer.get p with
                  buffer := .fetching h start len (before ++ { x with status := .granted } :: after) })) ∧
          (∀ g, clears p g → ¬transfers p ∨ bank.marks.get p = .transfer →
            decideGrant s b = granted (.clear p) g (.write 0 (List.replicate 512 0)) (turned p .clear))) ∧
        ((∀ p, ¬waits p) → decideGrant s b = s)))

/-- TICK of a bank takes the due row: a fresh one becomes not fresh; one that is neither fresh nor owed is owed while
the list holds fewer than 8; else it is lost. The due pointer and the tick count rise by one. A tick that loses no row
changes nothing else; the idle banks decide. A lost row's bytes become free values (log 8), a READY or DAMAGED extent
that holds it is DAMAGED with its lost count one higher up to 255, with EXTENT_DAMAGED, carrying the new lost count, to
its owner and to each port that draws from it, once each; a CLEARING one clears again from it, with no event. When the
extent was READY every transfer unit is told: its buffers are emptied, their fetches given up, and a Read of it in progress
gets the damage mark, one that waited for the buffer now making its own accesses; a Write or Update goes on. -/
def Obligations.TickTakesTheDueRow : Prop :=
  ∀ (b : BankId) (s : State), ready s = true →
    let k := s.refresh.get b
    let g := 4 * k.due.val + bankNumber b
    let ticked := { k with due := k.due + 1, ticks := k.ticks + 1 }
    let after := fun (v : RefreshBank) => { s.setRefresh b v with arrivals := s.arrivals.tail }
    (k.fresh.getLsb k.due = true → ∃ flags : BitVec 1024,
      (∀ x : Fin 1024, flags.getLsb x = (k.fresh.getLsb x && decide (x ≠ k.due))) ∧
      exec (.tick b) s = .next (arbitrate (after
        { ticked with fresh := flags, request := k.request.or k.owed.head? }))) ∧
    (k.fresh.getLsb k.due = false → k.due ∉ k.owed → k.owed.length < 8 →
      exec (.tick b) s = .next (arbitrate (after
        { ticked with owed := k.owed ++ [k.due], request := k.request.or (k.owed ++ [k.due]).head? }))) ∧
    (k.fresh.getLsb k.due = false → (k.due ∈ k.owed ∨ 8 ≤ k.owed.length) → storeInv s = true →
      ∃ u t, exec (.tick b) s = .next t ∧ t = arbitrate u ∧
        t.refresh = s.refresh.set b { ticked with request := k.request.or k.owed.head? } ∧
        t.freeCount = s.freeCount + 1 ∧
        (∀ x, t.store.byteAt x = if 512 * g ≤ x ∧ x < 512 * g + 512 then
          Config.unspecifiedByte (s.freeCount + 1) x else s.store.byteAt x) ∧
        (∀ h e, s.extent h = some e →
          (¬(e.firstRow ≤ g ∧ g < e.firstRow + e.rows) → t.extent h = some e) ∧
          (e.firstRow ≤ g → g < e.firstRow + e.rows → extentsInv s = true →
            t.extent h = some (if e.state = .clearing then { e with progress := min e.progress (g - e.firstRow) }
              else { e with state := .damaged, lost := min 255 (e.lost + 1) }) ∧
            (∀ p, t.ports.get p =
              if e.state ≠ .clearing ∧ (e.owner = some p ∨ e.counts.get p ≠ 0) ∧
                (s.session.records.get p).takesEvents = true then
                (s.ports.get p).takeEvent (.extentDamaged h (min 255 (e.lost + 1)))
              else s.ports.get p) ∧
            (e.state ≠ .ready → u.transfer = s.transfer ∧ u.banks = s.banks) ∧
            (e.state = .ready →
              (∀ p, let x := s.transfer.get p
                let y := u.transfer.get p
                y.cursor = x.cursor ∧
                y.buffer = (if x.buffer.handle? = some h then .empty else x.buffer) ∧
                (x.job = none → y.job = none) ∧
                ∀ j, x.job = some j →
                  (j.isRead = false ∨ j.handle ≠ h ∧ x.buffer.handle? ≠ some h → y.job = some j) ∧
                  (∀ n, j.kind = .read n → j.handle = h → y.job = some { j with damage := true }) ∧
                  (∀ n, j.kind = .readBuffered n → j.handle = h → x.buffer.handle? = some h →
                    y.job = some { j with
                      kind := .read n, parts := readParts e.firstRow j.offset n, damage := true })) ∧
              ∀ c a, (s.banks.get c).inFlight = some a → (u.banks.get c).inFlight = some
                { a with wanted := a.wanted &&
                    !allPorts.any fun p => decide (a.requester = .transfer p) && fetchesFrom s p h }))) ∧
        ((∀ h e, s.extent h = some e → ¬(e.firstRow ≤ g ∧ g < e.firstRow + e.rows)) →
          t.ports = s.ports ∧ u.transfer = s.transfer ∧ u.banks = s.banks) ∧
        t.extents.clearLists = s.extents.clearLists ∧ t.session = s.session ∧ t.commit = s.commit ∧ t.check = s.check ∧ t.palette = s.palette)

/-- ACCESS_COMPLETION, the refresh engine's part: a completed row on its bank's owed list is removed from it and stays
not fresh; any other row becomes fresh; the refresh request then names the oldest row owed. This holds for every kind of
access and whoever asked for it; the other banks' refresh state stays. -/
def Obligations.CompletionServesRefresh : Prop :=
  ∀ (b : BankId) (s : State) (a : Access), ready s = true → (s.banks.get b).inFlight = some a →
    let k := s.refresh.get b
    let x : Fin 1024 := Fin.ofNat 1024 (a.row / 4)
    ∃ t, exec (.accessCompletion b) s = .next t ∧
      (∀ c, c ≠ b → t.refresh.get c = s.refresh.get c) ∧
      (x ∈ k.owed → t.refresh.get b =
        { k with owed := k.owed.filter fun y => decide (y ≠ x),
                 request := (k.owed.filter fun y => decide (y ≠ x)).head? }) ∧
      (x ∉ k.owed → (t.refresh.get b).owed = k.owed ∧ (t.refresh.get b).request = k.owed.head? ∧
        (t.refresh.get b).due = k.due ∧ (t.refresh.get b).ticks = k.ticks ∧
        ∀ y : Fin 1024, (t.refresh.get b).fresh.getLsb y = (k.fresh.getLsb y || decide (y = x)))

/-- ACCESS_COMPLETION at the row: a write replaces its bytes, an update combines its word with the operand, a read and a
refresh change no byte, and every other byte of the store stays. The write notice empties every read-ahead buffer whose
range shares a byte with those written, and no other buffer loses its range. A fetch given up so is no longer wanted at
the other banks, and a Read that waited for it presents its own accesses; a transfer of another kind goes on. A read that
is no longer wanted, whoever asked for it, hands its bytes to nobody: it only leaves the bank and is reported to refresh.
-/
def Obligations.CompletionChangesOnlyItsBytes : Prop :=
  ∀ (b : BankId) (s : State) (a : Access), ready s = true → storeInv s = true →
    (s.banks.get b).inFlight = some a → a.row < 4096 →
    ∃ t u, exec (.accessCompletion b) s = .next t ∧ t = arbitrate u ∧
      (∀ lo bytes, a.kind = .write lo bytes → lo + bytes.length ≤ 512 → ∀ x,
        t.store.byteAt x = if 512 * a.row + lo ≤ x ∧ x < 512 * a.row + lo + bytes.length then
          bytes.getD (x - (512 * a.row + lo)) 0 else s.store.byteAt x) ∧
      (∀ lo op operand, a.kind = .update lo op operand → lo + 4 ≤ 512 → ∀ x,
        let word := BitVec.ofNat 32
          ((((s.store.byteAt (512 * a.row + lo)).toNat * 256 + (s.store.byteAt (512 * a.row + lo + 1)).toNat) * 256 +
            (s.store.byteAt (512 * a.row + lo + 2)).toNat) * 256 + (s.store.byteAt (512 * a.row + lo + 3)).toNat)
        t.store.byteAt x = if 512 * a.row + lo ≤ x ∧ x < 512 * a.row + lo + 4 then
          (op.apply word operand).extractLsb' (24 - 8 * (x - (512 * a.row + lo))) 8 else s.store.byteAt x) ∧
      ((∃ lo n, a.kind = .read lo n) ∨ a.kind = .refresh → t.store = s.store) ∧
      (∀ lo hi : Nat, lo ≤ hi → (∃ bytes, a.kind = .write lo bytes ∧ hi + 1 = lo + bytes.length) ∨
          (∃ op operand, a.kind = .update lo op operand ∧ hi = lo + 3) →
        ∀ (q : PortId) (h : Fin 32) (e : Extent) (start len : Nat), s.extent h = some e → e.firstRow ≤ a.row →
          let holds := fun v : ReadAhead => (∃ parts, v = .fetching h start len parts) ∨
            ∃ bytes, v = .valid h start bytes ∧ bytes.length = len
          let shares := ∃ x, start ≤ x ∧ x < start + len ∧ 512 * (a.row - e.firstRow) + lo ≤ x ∧
            x ≤ 512 * (a.row - e.firstRow) + hi
          holds (s.transfer.get q).buffer → 1 ≤ len →
            (shares → (∀ j, (s.transfer.get q).job = some j → a.requester = .transfer q → j.isRead = false) →
              (t.transfer.get q).buffer = .empty) ∧
            (¬shares → a.requester ≠ .transfer q → holds (t.transfer.get q).buffer) ∧
            (a.requester ≠ .transfer q →
              (¬shares → u.transfer.get q = s.transfer.get q) ∧
              (shares → (u.transfer.get q).cursor = (s.transfer.get q).cursor ∧
                ((s.transfer.get q).job = none → (u.transfer.get q).job = none) ∧
                ∀ j, (s.transfer.get q).job = some j →
                  ((∀ n, j.kind ≠ .readBuffered n) → (u.transfer.get q).job = some j) ∧
                  ∀ n f, j.kind = .readBuffered n → s.extent j.handle = some f → (u.transfer.get q).job =
                    some { j with kind := .read n, parts := readParts f.firstRow j.offset n }) ∧
              ∀ c x, c ≠ b → (s.banks.get c).inFlight = some x → x.requester = .transfer q →
                (shares → (s.transfer.get q).buffer.isFetching = true →
                  (t.banks.get c).inFlight = some { x with wanted := false }) ∧
                (¬shares ∨ (s.transfer.get q).buffer.isFetching = false → (t.banks.get c).inFlight = some x))) ∧
      ((∃ lo n, a.kind = .read lo n) → a.wanted = false → u = { s with
        banks := s.banks.set b { s.banks.get b with inFlight := none }, refresh := u.refresh
        arrivals := s.arrivals.tail }) ∧
      t.store.stamp = s.store.stamp ∧ t.session = s.session ∧ t.commit = s.commit ∧ t.check = s.check ∧
      t.palette = s.palette ∧ t.freeCount = s.freeCount

/-- ACCESS_COMPLETION of a row access of a transfer. While another access of it is to come the transfer goes on, unanswered, and holds what the completed one handed
over: the bytes the row holds at a read, the old word at an update, nothing at a write.
At the last, whichever row it is: a Write advances the cursor by its byte count and is answered OK; an Update is answered
with the old word and leaves the cursor; a Read that presented its own accesses advances the cursor and is answered with
the bytes, DAMAGED when it bears a damage mark, and read-ahead starts. A detached transfer moves no cursor. The last
access of a fetch makes the buffer VALID with the bytes fetched, and a Read that waits for it is served from it.
The Update's result is judged then (log 14). -/
def Obligations.TransfersEndAtTheLastCompletion : Prop :=
  ∀ (b : BankId) (s : State) (a : Access) (p : PortId) (before after : List Part) (t0 : Part),
    ready s = true → (s.banks.get b).inFlight = some a → a.requester = .transfer p → a.wanted = true →
    t0.status = .granted → bankOfRow t0.row = b →
    (∀ x ∈ before, ¬(x.status = .granted ∧ bankOfRow x.row = b)) →
    let last := ∀ x ∈ before ++ after, x.finished = true
    let given := match a.kind with
      | .read lo len => s.store.bytesAt a.row lo len
      | .update lo _ _ => s.store.bytesAt a.row lo 4
      | .write _ _ => []
      | .refresh => []
    let answered := fun (u : State) (r : Request) (result : Result) (payload : List Byte) =>
      (s.ports.get p).discard = false → (s.ports.get p).requests.head? = some r →
        u.ports = s.ports.set p
          { s.ports.get p with
            requests := (s.ports.get p).requests.tail, executing := false
            outbound := (s.ports.get p).outbound ++ [.response r.tag result payload] }
    let served := fun (u : State) (j : Job) (n : Nat) =>
      (u.transfer.get p).job = none ∧
      (j.detached = true → (u.transfer.get p).cursor = (s.transfer.get p).cursor) ∧
      (j.detached = false →
        (u.transfer.get p).cursor = (s.transfer.get p).cursor.map (fun c => { c with offset := c.offset + n }) ∧
        ∀ c e, (s.transfer.get p).cursor = some c → s.extent c.handle = some e →
          (u.transfer.get p).buffer = readAheadFrom c.handle e (c.offset + n))
    (∀ j, (s.transfer.get p).job = some j → j.parts = before ++ t0 :: after → (∀ n, j.kind ≠ .readBuffered n) →
      ∃ u, exec (.accessCompletion b) s = .next (arbitrate u) ∧
        (¬last → u.ports = s.ports ∧ (u.transfer.get p).cursor = (s.transfer.get p).cursor ∧
          (u.transfer.get p).job = some { j with parts := before ++ { t0 with status := .done given } :: after }) ∧
        (∀ n r, last → j.kind = .write n → answered u r .ok [] ∧ (u.transfer.get p).job = none ∧
          (u.transfer.get p).cursor = if j.detached then (s.transfer.get p).cursor
            else (s.transfer.get p).cursor.map fun c => { c with offset := c.offset + n }) ∧
        (∀ lo op operand r, last → j.kind = .update → a.kind = .update lo op operand → before = [] → after = [] →
          answered u r (if s.extentDamaged j.handle then .damaged else .ok) (s.store.bytesAt a.row lo 4) ∧
          (u.transfer.get p).job = none ∧ (u.transfer.get p).cursor = (s.transfer.get p).cursor) ∧
        (∀ n lo len r, last → j.kind = .read n → a.kind = .read lo len →
          let bytes := before.flatMap Part.bytes ++ s.store.bytesAt a.row lo len ++ after.flatMap Part.bytes
          answered u r (if j.damage then .damaged else .ok) bytes ∧ served u j bytes.length)) ∧
    (∀ h start len lo m, (s.transfer.get p).buffer = .fetching h start len (before ++ t0 :: after) →
      a.kind = .read lo m →
      (∀ j, (s.transfer.get p).job = some j → ∀ x ∈ j.parts, ¬(x.status = .granted ∧ bankOfRow x.row = b)) →
      let bytes := before.flatMap Part.bytes ++ s.store.bytesAt a.row lo m ++ after.flatMap Part.bytes
      ∃ u, exec (.accessCompletion b) s = .next (arbitrate u) ∧
        (¬last → u.ports = s.ports ∧ u.transfer = s.transfer.set p { s.transfer.get p with
          buffer := .fetching h start len
            (before ++ { t0 with status := .done (s.store.bytesAt a.row lo m) } :: after) }) ∧
        (last → (∀ j n, (s.transfer.get p).job = some j → j.kind ≠ .readBuffered n) → u.ports = s.ports ∧
          u.transfer = s.transfer.set p { s.transfer.get p with buffer := .valid h start bytes }) ∧
        (∀ j n r, last → (s.transfer.get p).job = some j → j.kind = .readBuffered n →
          let taken := (bytes.drop (j.offset - start)).take n
          answered u r (if j.damage then .damaged else .ok) taken ∧ served u j taken.length))

/-- ACCESS_COMPLETION of a clear write of the extent at the head of the port's clear list: the clear progress passes the
row; after the last row the extent is READY and off the list, and CLEAR_DONE goes to its owner. -/
def Obligations.ClearingAdvancesRowByRow : Prop :=
  ∀ (b : BankId) (s : State) (a : Access) (p : PortId) (h : Fin 32) (rest : List (Fin 32)) (e : Extent),
    ready s = true → (s.banks.get b).inFlight = some a → a.requester = .clear p → a.wanted = true →
    s.extents.clearLists.get p = h :: rest → s.extent h = some e → a.row = e.firstRow + e.progress →
    ∃ t, exec (.accessCompletion b) s = .next t ∧ (∀ k, k ≠ h → t.extent k = s.extent k) ∧
      (e.progress + 1 < e.rows →
        t.extent h = some { e with progress := e.progress + 1 } ∧
        t.extents.clearLists = s.extents.clearLists ∧ t.ports = s.ports) ∧
      (e.progress + 1 = e.rows →
        t.extent h = some { e with progress := e.rows, state := .ready } ∧
        t.extents.clearLists = s.extents.clearLists.set p rest ∧
        ∀ q, t.ports.get q = if e.owner = some q ∧ (s.session.records.get q).takesEvents = true then
          (s.ports.get q).takeEvent (.clearDone h) else s.ports.get q)

/-! ### The whole machine -/

/-- What only some commands change. Live descriptors of held slots change only at MOVE_NOW, BLANK_START and
RESET_RELEASE; bytes of the store only at ACCESS_COMPLETION, TICK and the resets; live palette entries only at
BLANK_START and RESET_RELEASE; the frame counter and the timing in force only at FRAME_START and the resets; the plan in
force only at BLANK_START and the resets. -/
def Obligations.OnlySomeCommandsChangeWhatIsShown : Prop :=
  ∀ (c : Instr) (s t : State), exec c s = .next t →
    let resets := (∃ ns, c = .resetAssert ns) ∨ c = .resetRelease
    ((¬∃ p, c = .moveNow p) → c ≠ .blankStart → c ≠ .resetRelease →
      ∀ l state p d, s.slot l = .held state p d → ∃ state', t.slot l = .held state' p d) ∧
    ((¬∃ b, c = .accessCompletion b) → (¬∃ b, c = .tick b) → ¬resets → t.store = s.store) ∧
    (c ≠ .blankStart → c ≠ .resetRelease → ∀ b, (t.block b).live = (s.block b).live) ∧
    (c ≠ .frameStart → ¬resets →
      t.scan.frameCounter = s.scan.frameCounter ∧ t.scan.timing = s.scan.timing ∧ t.scan.output = s.scan.output) ∧
    (c ≠ .blankStart → ¬resets → t.session.plan = s.session.plan)

/-- Every step keeps the store's canonical form. -/
def Obligations.EveryStepKeepsTheStore : Prop :=
  ∀ s t : State, storeInv s = true → step s = .next t → storeInv t = true

/-- Every step keeps the bounds of the queues: at most 4 requests and responses, and at most 12 events, at each port;
and a port has a transfer in progress exactly while its request is executing. -/
def Obligations.EveryStepKeepsTheQueues : Prop :=
  ∀ s t : State, queueInv s = true → jobInv s = true → step s = .next t → queueInv t = true ∧ jobInv t = true

/-- Every step keeps the owed lists: at most 8 rows, none twice, none fresh, and the refresh request names the
oldest. -/
def Obligations.EveryStepKeepsTheOwedLists : Prop :=
  ∀ s t : State, refreshInv s = true → step s = .next t → refreshInv t = true

/-- Every step keeps the batch buffers as R44 describes them, and the free palette blocks clear (R157). -/
def Obligations.EveryStepKeepsBatchesAndPalette : Prop :=
  ∀ s t : State, batchInv s = true → paletteInv s = true → step s = .next t →
    batchInv t = true ∧ paletteInv t = true

/-- Every step keeps the extents apart and inside the store. -/
def Obligations.EveryStepKeepsTheExtentsApart : Prop :=
  ∀ s t : State, extentsInv s = true → step s = .next t → extentsInv t = true

/-- Every step keeps the reference counts exact: each is the number of the port's OWNED or RETIRING slots whose live
source names the extent. -/
def Obligations.EveryStepKeepsTheCountsExact : Prop :=
  ∀ s t : State, countsInv s = true → step s = .next t → countsInv t = true

/-- Every step keeps the depths of the OWNED and RETIRING slots distinct and inside their owners' bands, the plan in
force and the plan proposed valid with every field in its range, quotas, bands and timing alike, and the position inside
the frame. -/
def Obligations.EveryStepKeepsDepthsAndPlan : Prop :=
  ∀ s t : State, slotsInv s = true → timingInv s = true → step s = .next t → slotsInv t = true ∧ timingInv t = true
end

