-- ==== Sys2Proof/Laws/State.lean ====
section
/-! SUPPORT. What each update of the state changes: one lemma for each field and update. -/

namespace Sys2Proof.Machine

variable (s : State)

/-! ### setPort -/

@[simp] theorem State.setPort_pending (p : PortId) (v : PortController) : (s.setPort p v).pending = s.pending := rfl
@[simp] theorem State.setPort_resetN (p : PortId) (v : PortController) : (s.setPort p v).resetN = s.resetN := rfl
@[simp] theorem State.setPort_ports (p : PortId) (v : PortController) : (s.setPort p v).ports = s.ports.set p v := rfl
@[simp] theorem State.setPort_session (p : PortId) (v : PortController) : (s.setPort p v).session = s.session := rfl
@[simp] theorem State.setPort_commit (p : PortId) (v : PortController) : (s.setPort p v).commit = s.commit := rfl
@[simp] theorem State.setPort_scan (p : PortId) (v : PortController) : (s.setPort p v).scan = s.scan := rfl
@[simp] theorem State.setPort_check (p : PortId) (v : PortController) : (s.setPort p v).check = s.check := rfl
@[simp] theorem State.setPort_extents (p : PortId) (v : PortController) : (s.setPort p v).extents = s.extents := rfl
@[simp] theorem State.setPort_store (p : PortId) (v : PortController) : (s.setPort p v).store = s.store := rfl
@[simp] theorem State.setPort_banks (p : PortId) (v : PortController) : (s.setPort p v).banks = s.banks := rfl
@[simp] theorem State.setPort_refresh (p : PortId) (v : PortController) : (s.setPort p v).refresh = s.refresh := rfl
@[simp] theorem State.setPort_transfer (p : PortId) (v : PortController) : (s.setPort p v).transfer = s.transfer := rfl
@[simp] theorem State.setPort_palette (p : PortId) (v : PortController) : (s.setPort p v).palette = s.palette := rfl
@[simp] theorem State.setPort_freeCount (p : PortId) (v : PortController) : (s.setPort p v).freeCount = s.freeCount := rfl
@[simp] theorem State.setPort_arrivals (p : PortId) (v : PortController) : (s.setPort p v).arrivals = s.arrivals := rfl

/-! ### setSession -/

@[simp] theorem State.setSession_pending (p : PortId) (v : Session) : (s.setSession p v).pending = s.pending := rfl
@[simp] theorem State.setSession_resetN (p : PortId) (v : Session) : (s.setSession p v).resetN = s.resetN := rfl
@[simp] theorem State.setSession_ports (p : PortId) (v : Session) : (s.setSession p v).ports = s.ports := rfl
@[simp] theorem State.setSession_session (p : PortId) (v : Session) : (s.setSession p v).session = { s.session with records := s.session.records.set p v } := rfl
@[simp] theorem State.setSession_commit (p : PortId) (v : Session) : (s.setSession p v).commit = s.commit := rfl
@[simp] theorem State.setSession_scan (p : PortId) (v : Session) : (s.setSession p v).scan = s.scan := rfl
@[simp] theorem State.setSession_check (p : PortId) (v : Session) : (s.setSession p v).check = s.check := rfl
@[simp] theorem State.setSession_extents (p : PortId) (v : Session) : (s.setSession p v).extents = s.extents := rfl
@[simp] theorem State.setSession_store (p : PortId) (v : Session) : (s.setSession p v).store = s.store := rfl
@[simp] theorem State.setSession_banks (p : PortId) (v : Session) : (s.setSession p v).banks = s.banks := rfl
@[simp] theorem State.setSession_refresh (p : PortId) (v : Session) : (s.setSession p v).refresh = s.refresh := rfl
@[simp] theorem State.setSession_transfer (p : PortId) (v : Session) : (s.setSession p v).transfer = s.transfer := rfl
@[simp] theorem State.setSession_palette (p : PortId) (v : Session) : (s.setSession p v).palette = s.palette := rfl
@[simp] theorem State.setSession_freeCount (p : PortId) (v : Session) : (s.setSession p v).freeCount = s.freeCount := rfl
@[simp] theorem State.setSession_arrivals (p : PortId) (v : Session) : (s.setSession p v).arrivals = s.arrivals := rfl

/-! ### setPlanState -/

@[simp] theorem State.setPlanState_pending (v : PlanState) : (s.setPlanState v).pending = s.pending := rfl
@[simp] theorem State.setPlanState_resetN (v : PlanState) : (s.setPlanState v).resetN = s.resetN := rfl
@[simp] theorem State.setPlanState_ports (v : PlanState) : (s.setPlanState v).ports = s.ports := rfl
@[simp] theorem State.setPlanState_session (v : PlanState) : (s.setPlanState v).session = { s.session with planState := v } := rfl
@[simp] theorem State.setPlanState_commit (v : PlanState) : (s.setPlanState v).commit = s.commit := rfl
@[simp] theorem State.setPlanState_scan (v : PlanState) : (s.setPlanState v).scan = s.scan := rfl
@[simp] theorem State.setPlanState_check (v : PlanState) : (s.setPlanState v).check = s.check := rfl
@[simp] theorem State.setPlanState_extents (v : PlanState) : (s.setPlanState v).extents = s.extents := rfl
@[simp] theorem State.setPlanState_store (v : PlanState) : (s.setPlanState v).store = s.store := rfl
@[simp] theorem State.setPlanState_banks (v : PlanState) : (s.setPlanState v).banks = s.banks := rfl
@[simp] theorem State.setPlanState_refresh (v : PlanState) : (s.setPlanState v).refresh = s.refresh := rfl
@[simp] theorem State.setPlanState_transfer (v : PlanState) : (s.setPlanState v).transfer = s.transfer := rfl
@[simp] theorem State.setPlanState_palette (v : PlanState) : (s.setPlanState v).palette = s.palette := rfl
@[simp] theorem State.setPlanState_freeCount (v : PlanState) : (s.setPlanState v).freeCount = s.freeCount := rfl
@[simp] theorem State.setPlanState_arrivals (v : PlanState) : (s.setPlanState v).arrivals = s.arrivals := rfl

/-! ### setSlot -/

@[simp] theorem State.setSlot_pending (l : Fin 16) (v : Slot) : (s.setSlot l v).pending = s.pending := rfl
@[simp] theorem State.setSlot_resetN (l : Fin 16) (v : Slot) : (s.setSlot l v).resetN = s.resetN := rfl
@[simp] theorem State.setSlot_ports (l : Fin 16) (v : Slot) : (s.setSlot l v).ports = s.ports := rfl
@[simp] theorem State.setSlot_session (l : Fin 16) (v : Slot) : (s.setSlot l v).session = s.session := rfl
@[simp] theorem State.setSlot_commit (l : Fin 16) (v : Slot) : (s.setSlot l v).commit = { s.commit with slots := s.commit.slots.set l.val v l.isLt } := rfl
@[simp] theorem State.setSlot_scan (l : Fin 16) (v : Slot) : (s.setSlot l v).scan = s.scan := rfl
@[simp] theorem State.setSlot_check (l : Fin 16) (v : Slot) : (s.setSlot l v).check = s.check := rfl
@[simp] theorem State.setSlot_extents (l : Fin 16) (v : Slot) : (s.setSlot l v).extents = s.extents := rfl
@[simp] theorem State.setSlot_store (l : Fin 16) (v : Slot) : (s.setSlot l v).store = s.store := rfl
@[simp] theorem State.setSlot_banks (l : Fin 16) (v : Slot) : (s.setSlot l v).banks = s.banks := rfl
@[simp] theorem State.setSlot_refresh (l : Fin 16) (v : Slot) : (s.setSlot l v).refresh = s.refresh := rfl
@[simp] theorem State.setSlot_transfer (l : Fin 16) (v : Slot) : (s.setSlot l v).transfer = s.transfer := rfl
@[simp] theorem State.setSlot_palette (l : Fin 16) (v : Slot) : (s.setSlot l v).palette = s.palette := rfl
@[simp] theorem State.setSlot_freeCount (l : Fin 16) (v : Slot) : (s.setSlot l v).freeCount = s.freeCount := rfl
@[simp] theorem State.setSlot_arrivals (l : Fin 16) (v : Slot) : (s.setSlot l v).arrivals = s.arrivals := rfl

/-! ### setBatch -/

@[simp] theorem State.setBatch_pending (p : PortId) (v : Batch) : (s.setBatch p v).pending = s.pending := rfl
@[simp] theorem State.setBatch_resetN (p : PortId) (v : Batch) : (s.setBatch p v).resetN = s.resetN := rfl
@[simp] theorem State.setBatch_ports (p : PortId) (v : Batch) : (s.setBatch p v).ports = s.ports := rfl
@[simp] theorem State.setBatch_session (p : PortId) (v : Batch) : (s.setBatch p v).session = s.session := rfl
@[simp] theorem State.setBatch_commit (p : PortId) (v : Batch) : (s.setBatch p v).commit = { s.commit with batches := s.commit.batches.set p v } := rfl
@[simp] theorem State.setBatch_scan (p : PortId) (v : Batch) : (s.setBatch p v).scan = s.scan := rfl
@[simp] theorem State.setBatch_check (p : PortId) (v : Batch) : (s.setBatch p v).check = s.check := rfl
@[simp] theorem State.setBatch_extents (p : PortId) (v : Batch) : (s.setBatch p v).extents = s.extents := rfl
@[simp] theorem State.setBatch_store (p : PortId) (v : Batch) : (s.setBatch p v).store = s.store := rfl
@[simp] theorem State.setBatch_banks (p : PortId) (v : Batch) : (s.setBatch p v).banks = s.banks := rfl
@[simp] theorem State.setBatch_refresh (p : PortId) (v : Batch) : (s.setBatch p v).refresh = s.refresh := rfl
@[simp] theorem State.setBatch_transfer (p : PortId) (v : Batch) : (s.setBatch p v).transfer = s.transfer := rfl
@[simp] theorem State.setBatch_palette (p : PortId) (v : Batch) : (s.setBatch p v).palette = s.palette := rfl
@[simp] theorem State.setBatch_freeCount (p : PortId) (v : Batch) : (s.setBatch p v).freeCount = s.freeCount := rfl
@[simp] theorem State.setBatch_arrivals (p : PortId) (v : Batch) : (s.setBatch p v).arrivals = s.arrivals := rfl

/-! ### setWindow -/

@[simp] theorem State.setWindow_pending (w : Fin 8) (v : Option Window) : (s.setWindow w v).pending = s.pending := rfl
@[simp] theorem State.setWindow_resetN (w : Fin 8) (v : Option Window) : (s.setWindow w v).resetN = s.resetN := rfl
@[simp] theorem State.setWindow_ports (w : Fin 8) (v : Option Window) : (s.setWindow w v).ports = s.ports := rfl
@[simp] theorem State.setWindow_session (w : Fin 8) (v : Option Window) : (s.setWindow w v).session = s.session := rfl
@[simp] theorem State.setWindow_commit (w : Fin 8) (v : Option Window) : (s.setWindow w v).commit = s.commit := rfl
@[simp] theorem State.setWindow_scan (w : Fin 8) (v : Option Window) : (s.setWindow w v).scan = s.scan := rfl
@[simp] theorem State.setWindow_check (w : Fin 8) (v : Option Window) : (s.setWindow w v).check = { s.check with windows := s.check.windows.set w.val v w.isLt } := rfl
@[simp] theorem State.setWindow_extents (w : Fin 8) (v : Option Window) : (s.setWindow w v).extents = s.extents := rfl
@[simp] theorem State.setWindow_store (w : Fin 8) (v : Option Window) : (s.setWindow w v).store = s.store := rfl
@[simp] theorem State.setWindow_banks (w : Fin 8) (v : Option Window) : (s.setWindow w v).banks = s.banks := rfl
@[simp] theorem State.setWindow_refresh (w : Fin 8) (v : Option Window) : (s.setWindow w v).refresh = s.refresh := rfl
@[simp] theorem State.setWindow_transfer (w : Fin 8) (v : Option Window) : (s.setWindow w v).transfer = s.transfer := rfl
@[simp] theorem State.setWindow_palette (w : Fin 8) (v : Option Window) : (s.setWindow w v).palette = s.palette := rfl
@[simp] theorem State.setWindow_freeCount (w : Fin 8) (v : Option Window) : (s.setWindow w v).freeCount = s.freeCount := rfl
@[simp] theorem State.setWindow_arrivals (w : Fin 8) (v : Option Window) : (s.setWindow w v).arrivals = s.arrivals := rfl

/-! ### setExtent -/

@[simp] theorem State.setExtent_pending (h : Fin 32) (v : Option Extent) : (s.setExtent h v).pending = s.pending := rfl
@[simp] theorem State.setExtent_resetN (h : Fin 32) (v : Option Extent) : (s.setExtent h v).resetN = s.resetN := rfl
@[simp] theorem State.setExtent_ports (h : Fin 32) (v : Option Extent) : (s.setExtent h v).ports = s.ports := rfl
@[simp] theorem State.setExtent_session (h : Fin 32) (v : Option Extent) : (s.setExtent h v).session = s.session := rfl
@[simp] theorem State.setExtent_commit (h : Fin 32) (v : Option Extent) : (s.setExtent h v).commit = s.commit := rfl
@[simp] theorem State.setExtent_scan (h : Fin 32) (v : Option Extent) : (s.setExtent h v).scan = s.scan := rfl
@[simp] theorem State.setExtent_check (h : Fin 32) (v : Option Extent) : (s.setExtent h v).check = s.check := rfl
@[simp] theorem State.setExtent_extents (h : Fin 32) (v : Option Extent) : (s.setExtent h v).extents = { s.extents with records := s.extents.records.set h.val v h.isLt } := rfl
@[simp] theorem State.setExtent_store (h : Fin 32) (v : Option Extent) : (s.setExtent h v).store = s.store := rfl
@[simp] theorem State.setExtent_banks (h : Fin 32) (v : Option Extent) : (s.setExtent h v).banks = s.banks := rfl
@[simp] theorem State.setExtent_refresh (h : Fin 32) (v : Option Extent) : (s.setExtent h v).refresh = s.refresh := rfl
@[simp] theorem State.setExtent_transfer (h : Fin 32) (v : Option Extent) : (s.setExtent h v).transfer = s.transfer := rfl
@[simp] theorem State.setExtent_palette (h : Fin 32) (v : Option Extent) : (s.setExtent h v).palette = s.palette := rfl
@[simp] theorem State.setExtent_freeCount (h : Fin 32) (v : Option Extent) : (s.setExtent h v).freeCount = s.freeCount := rfl
@[simp] theorem State.setExtent_arrivals (h : Fin 32) (v : Option Extent) : (s.setExtent h v).arrivals = s.arrivals := rfl

/-! ### setClearList -/

@[simp] theorem State.setClearList_pending (p : PortId) (v : List (Fin 32)) : (s.setClearList p v).pending = s.pending := rfl
@[simp] theorem State.setClearList_resetN (p : PortId) (v : List (Fin 32)) : (s.setClearList p v).resetN = s.resetN := rfl
@[simp] theorem State.setClearList_ports (p : PortId) (v : List (Fin 32)) : (s.setClearList p v).ports = s.ports := rfl
@[simp] theorem State.setClearList_session (p : PortId) (v : List (Fin 32)) : (s.setClearList p v).session = s.session := rfl
@[simp] theorem State.setClearList_commit (p : PortId) (v : List (Fin 32)) : (s.setClearList p v).commit = s.commit := rfl
@[simp] theorem State.setClearList_scan (p : PortId) (v : List (Fin 32)) : (s.setClearList p v).scan = s.scan := rfl
@[simp] theorem State.setClearList_check (p : PortId) (v : List (Fin 32)) : (s.setClearList p v).check = s.check := rfl
@[simp] theorem State.setClearList_extents (p : PortId) (v : List (Fin 32)) : (s.setClearList p v).extents = { s.extents with clearLists := s.extents.clearLists.set p v } := rfl
@[simp] theorem State.setClearList_store (p : PortId) (v : List (Fin 32)) : (s.setClearList p v).store = s.store := rfl
@[simp] theorem State.setClearList_banks (p : PortId) (v : List (Fin 32)) : (s.setClearList p v).banks = s.banks := rfl
@[simp] theorem State.setClearList_refresh (p : PortId) (v : List (Fin 32)) : (s.setClearList p v).refresh = s.refresh := rfl
@[simp] theorem State.setClearList_transfer (p : PortId) (v : List (Fin 32)) : (s.setClearList p v).transfer = s.transfer := rfl
@[simp] theorem State.setClearList_palette (p : PortId) (v : List (Fin 32)) : (s.setClearList p v).palette = s.palette := rfl
@[simp] theorem State.setClearList_freeCount (p : PortId) (v : List (Fin 32)) : (s.setClearList p v).freeCount = s.freeCount := rfl
@[simp] theorem State.setClearList_arrivals (p : PortId) (v : List (Fin 32)) : (s.setClearList p v).arrivals = s.arrivals := rfl

/-! ### setBank -/

@[simp] theorem State.setBank_pending (b : BankId) (v : Bank) : (s.setBank b v).pending = s.pending := rfl
@[simp] theorem State.setBank_resetN (b : BankId) (v : Bank) : (s.setBank b v).resetN = s.resetN := rfl
@[simp] theorem State.setBank_ports (b : BankId) (v : Bank) : (s.setBank b v).ports = s.ports := rfl
@[simp] theorem State.setBank_session (b : BankId) (v : Bank) : (s.setBank b v).session = s.session := rfl
@[simp] theorem State.setBank_commit (b : BankId) (v : Bank) : (s.setBank b v).commit = s.commit := rfl
@[simp] theorem State.setBank_scan (b : BankId) (v : Bank) : (s.setBank b v).scan = s.scan := rfl
@[simp] theorem State.setBank_check (b : BankId) (v : Bank) : (s.setBank b v).check = s.check := rfl
@[simp] theorem State.setBank_extents (b : BankId) (v : Bank) : (s.setBank b v).extents = s.extents := rfl
@[simp] theorem State.setBank_store (b : BankId) (v : Bank) : (s.setBank b v).store = s.store := rfl
@[simp] theorem State.setBank_banks (b : BankId) (v : Bank) : (s.setBank b v).banks = s.banks.set b v := rfl
@[simp] theorem State.setBank_refresh (b : BankId) (v : Bank) : (s.setBank b v).refresh = s.refresh := rfl
@[simp] theorem State.setBank_transfer (b : BankId) (v : Bank) : (s.setBank b v).transfer = s.transfer := rfl
@[simp] theorem State.setBank_palette (b : BankId) (v : Bank) : (s.setBank b v).palette = s.palette := rfl
@[simp] theorem State.setBank_freeCount (b : BankId) (v : Bank) : (s.setBank b v).freeCount = s.freeCount := rfl
@[simp] theorem State.setBank_arrivals (b : BankId) (v : Bank) : (s.setBank b v).arrivals = s.arrivals := rfl

/-! ### setRefresh -/

@[simp] theorem State.setRefresh_pending (b : BankId) (v : RefreshBank) : (s.setRefresh b v).pending = s.pending := rfl
@[simp] theorem State.setRefresh_resetN (b : BankId) (v : RefreshBank) : (s.setRefresh b v).resetN = s.resetN := rfl
@[simp] theorem State.setRefresh_ports (b : BankId) (v : RefreshBank) : (s.setRefresh b v).ports = s.ports := rfl
@[simp] theorem State.setRefresh_session (b : BankId) (v : RefreshBank) : (s.setRefresh b v).session = s.session := rfl
@[simp] theorem State.setRefresh_commit (b : BankId) (v : RefreshBank) : (s.setRefresh b v).commit = s.commit := rfl
@[simp] theorem State.setRefresh_scan (b : BankId) (v : RefreshBank) : (s.setRefresh b v).scan = s.scan := rfl
@[simp] theorem State.setRefresh_check (b : BankId) (v : RefreshBank) : (s.setRefresh b v).check = s.check := rfl
@[simp] theorem State.setRefresh_extents (b : BankId) (v : RefreshBank) : (s.setRefresh b v).extents = s.extents := rfl
@[simp] theorem State.setRefresh_store (b : BankId) (v : RefreshBank) : (s.setRefresh b v).store = s.store := rfl
@[simp] theorem State.setRefresh_banks (b : BankId) (v : RefreshBank) : (s.setRefresh b v).banks = s.banks := rfl
@[simp] theorem State.setRefresh_refresh (b : BankId) (v : RefreshBank) : (s.setRefresh b v).refresh = s.refresh.set b v := rfl
@[simp] theorem State.setRefresh_transfer (b : BankId) (v : RefreshBank) : (s.setRefresh b v).transfer = s.transfer := rfl
@[simp] theorem State.setRefresh_palette (b : BankId) (v : RefreshBank) : (s.setRefresh b v).palette = s.palette := rfl
@[simp] theorem State.setRefresh_freeCount (b : BankId) (v : RefreshBank) : (s.setRefresh b v).freeCount = s.freeCount := rfl
@[simp] theorem State.setRefresh_arrivals (b : BankId) (v : RefreshBank) : (s.setRefresh b v).arrivals = s.arrivals := rfl

/-! ### setTransfer -/

@[simp] theorem State.setTransfer_pending (p : PortId) (v : TransferUnit) : (s.setTransfer p v).pending = s.pending := rfl
@[simp] theorem State.setTransfer_resetN (p : PortId) (v : TransferUnit) : (s.setTransfer p v).resetN = s.resetN := rfl
@[simp] theorem State.setTransfer_ports (p : PortId) (v : TransferUnit) : (s.setTransfer p v).ports = s.ports := rfl
@[simp] theorem State.setTransfer_session (p : PortId) (v : TransferUnit) : (s.setTransfer p v).session = s.session := rfl
@[simp] theorem State.setTransfer_commit (p : PortId) (v : TransferUnit) : (s.setTransfer p v).commit = s.commit := rfl
@[simp] theorem State.setTransfer_scan (p : PortId) (v : TransferUnit) : (s.setTransfer p v).scan = s.scan := rfl
@[simp] theorem State.setTransfer_check (p : PortId) (v : TransferUnit) : (s.setTransfer p v).check = s.check := rfl
@[simp] theorem State.setTransfer_extents (p : PortId) (v : TransferUnit) : (s.setTransfer p v).extents = s.extents := rfl
@[simp] theorem State.setTransfer_store (p : PortId) (v : TransferUnit) : (s.setTransfer p v).store = s.store := rfl
@[simp] theorem State.setTransfer_banks (p : PortId) (v : TransferUnit) : (s.setTransfer p v).banks = s.banks := rfl
@[simp] theorem State.setTransfer_refresh (p : PortId) (v : TransferUnit) : (s.setTransfer p v).refresh = s.refresh := rfl
@[simp] theorem State.setTransfer_transfer (p : PortId) (v : TransferUnit) : (s.setTransfer p v).transfer = s.transfer.set p v := rfl
@[simp] theorem State.setTransfer_palette (p : PortId) (v : TransferUnit) : (s.setTransfer p v).palette = s.palette := rfl
@[simp] theorem State.setTransfer_freeCount (p : PortId) (v : TransferUnit) : (s.setTransfer p v).freeCount = s.freeCount := rfl
@[simp] theorem State.setTransfer_arrivals (p : PortId) (v : TransferUnit) : (s.setTransfer p v).arrivals = s.arrivals := rfl

/-! ### setBlock -/

@[simp] theorem State.setBlock_pending (b : Fin 64) (v : PaletteBlock) : (s.setBlock b v).pending = s.pending := rfl
@[simp] theorem State.setBlock_resetN (b : Fin 64) (v : PaletteBlock) : (s.setBlock b v).resetN = s.resetN := rfl
@[simp] theorem State.setBlock_ports (b : Fin 64) (v : PaletteBlock) : (s.setBlock b v).ports = s.ports := rfl
@[simp] theorem State.setBlock_session (b : Fin 64) (v : PaletteBlock) : (s.setBlock b v).session = s.session := rfl
@[simp] theorem State.setBlock_commit (b : Fin 64) (v : PaletteBlock) : (s.setBlock b v).commit = s.commit := rfl
@[simp] theorem State.setBlock_scan (b : Fin 64) (v : PaletteBlock) : (s.setBlock b v).scan = s.scan := rfl
@[simp] theorem State.setBlock_check (b : Fin 64) (v : PaletteBlock) : (s.setBlock b v).check = s.check := rfl
@[simp] theorem State.setBlock_extents (b : Fin 64) (v : PaletteBlock) : (s.setBlock b v).extents = s.extents := rfl
@[simp] theorem State.setBlock_store (b : Fin 64) (v : PaletteBlock) : (s.setBlock b v).store = s.store := rfl
@[simp] theorem State.setBlock_banks (b : Fin 64) (v : PaletteBlock) : (s.setBlock b v).banks = s.banks := rfl
@[simp] theorem State.setBlock_refresh (b : Fin 64) (v : PaletteBlock) : (s.setBlock b v).refresh = s.refresh := rfl
@[simp] theorem State.setBlock_transfer (b : Fin 64) (v : PaletteBlock) : (s.setBlock b v).transfer = s.transfer := rfl
@[simp] theorem State.setBlock_palette (b : Fin 64) (v : PaletteBlock) : (s.setBlock b v).palette = s.palette.set b.val v b.isLt := rfl
@[simp] theorem State.setBlock_freeCount (b : Fin 64) (v : PaletteBlock) : (s.setBlock b v).freeCount = s.freeCount := rfl
@[simp] theorem State.setBlock_arrivals (b : Fin 64) (v : PaletteBlock) : (s.setBlock b v).arrivals = s.arrivals := rfl

/-! ### Tables of four -/

@[simp] theorem PerPort.get_set_same {α : Type} (t : PerPort α) (p : PortId) (v : α) : (t.set p v).get p = v := by
  cases p <;> rfl

theorem PerPort.get_set_other {α : Type} (t : PerPort α) {p q : PortId} (v : α) (h : q ≠ p) :
    (t.set p v).get q = t.get q := by
  cases p <;> cases q <;> first | rfl | exact absurd rfl h

@[simp] theorem PerPort.get_tab {α : Type} (f : PortId → α) (p : PortId) : (PerPort.tab f).get p = f p := by
  cases p <;> rfl

@[simp] theorem PerPort.set_get_self {α : Type} (t : PerPort α) (p : PortId) : t.set p (t.get p) = t := by
  cases p <;> rfl

@[simp] theorem PerPort.set_set_same {α : Type} (t : PerPort α) (p : PortId) (v w : α) :
    (t.set p v).set p w = t.set p w := by
  cases p <;> rfl

theorem PerPort.ext_get {α : Type} {t u : PerPort α} (h : ∀ p, t.get p = u.get p) : t = u := by
  cases t; cases u
  have h0 := h .h0; have h1 := h .h1; have h2 := h .h2; have h3 := h .h3
  simp_all [PerPort.get]

@[simp] theorem PerBank.get_set_same {α : Type} (t : PerBank α) (b : BankId) (v : α) : (t.set b v).get b = v := by
  cases b <;> rfl

theorem PerBank.get_set_other {α : Type} (t : PerBank α) {b c : BankId} (v : α) (h : c ≠ b) :
    (t.set b v).get c = t.get c := by
  cases b <;> cases c <;> first | rfl | exact absurd rfl h

@[simp] theorem PerBank.get_tab {α : Type} (f : BankId → α) (b : BankId) : (PerBank.tab f).get b = f b := by
  cases b <;> rfl

/-! ### Numbered tables -/

@[simp] theorem tabulate_get {α : Type} {n : Nat} (f : Fin n → α) (i : Fin n) : (tabulate f)[i] = f i := by
  simp [tabulate]

@[simp] theorem tabulate_getElem {α : Type} {n : Nat} (f : Fin n → α) (i : Nat) (h : i < n) :
    (tabulate f)[i] = f ⟨i, h⟩ := by
  simp [tabulate]

@[simp] theorem State.setSlot_slot_same (l : Fin 16) (v : Slot) : (s.setSlot l v).slot l = v := by
  simp [State.slot]

theorem State.setSlot_slot_other {l m : Fin 16} (v : Slot) (h : m ≠ l) : (s.setSlot l v).slot m = s.slot m := by
  have : l.val ≠ m.val := fun e => h (Fin.ext e.symm)
  simp [State.slot, Vector.getElem_set_ne, this]

@[simp] theorem State.setWindow_window_same (w : Fin 8) (v : Option Window) : (s.setWindow w v).window w = v := by
  simp [State.window]

theorem State.setWindow_window_other {w n : Fin 8} (v : Option Window) (h : n ≠ w) :
    (s.setWindow w v).window n = s.window n := by
  have : w.val ≠ n.val := fun e => h (Fin.ext e.symm)
  simp [State.window, Vector.getElem_set_ne, this]

@[simp] theorem State.setExtent_extent_same (h : Fin 32) (v : Option Extent) : (s.setExtent h v).extent h = v := by
  simp [State.extent]

theorem State.setExtent_extent_other {h k : Fin 32} (v : Option Extent) (n : k ≠ h) :
    (s.setExtent h v).extent k = s.extent k := by
  have : h.val ≠ k.val := fun e => n (Fin.ext e.symm)
  simp [State.extent, Vector.getElem_set_ne, this]

@[simp] theorem State.setBlock_block_same (b : Fin 64) (v : PaletteBlock) : (s.setBlock b v).block b = v := by
  simp [State.block]

theorem State.setBlock_block_other {b c : Fin 64} (v : PaletteBlock) (h : c ≠ b) :
    (s.setBlock b v).block c = s.block c := by
  have : b.val ≠ c.val := fun e => h (Fin.ext e.symm)
  simp [State.block, Vector.getElem_set_ne, this]

end Sys2Proof.Machine
end

