-- ==== Sys2Proof/Laws/Frames.lean ====
section
/-! SUPPORT. What each shared operation can change, said once: arrival of a step's messages, grant decisions, and the
operations of the transfer units, the extent manager and the teardown. -/

namespace Sys2Proof.Machine

/-! ### Arrival -/

/-- A message changes the controllers and the session records, and nothing else. -/
theorem deliver_frame (s : State) (m : Msg) :
    ∃ ports records, s.deliver m =
      { s with ports := ports, session := { s.session with records := records } } := by
  cases m with
  | respond p r payload => exact ⟨_, s.session.records, rfl⟩
  | event p e =>
    simp only [State.deliver]
    split
    · exact ⟨_, s.session.records, rfl⟩
    · exact ⟨s.ports, s.session.records, rfl⟩
  | sessionEnd p => exact ⟨s.ports, _, rfl⟩

theorem deliverAll_frame (l : List Msg) (s : State) :
    ∃ ports records, l.foldl State.deliver s =
      { s with ports := ports, session := { s.session with records := records } } := by
  induction l generalizing s with
  | nil => exact ⟨s.ports, s.session.records, rfl⟩
  | cons m l ih =>
    obtain ⟨p, r, h⟩ := deliver_frame s m
    obtain ⟨p', r', h'⟩ := ih (s.deliver m)
    exact ⟨p', r', by rw [List.foldl_cons, h', h]⟩

/-- Settling changes the controllers and the session records, and uses up one entry of `arrivals`. -/
theorem settle_frame (a : Act) :
    ∃ ports records, a.settle =
      { a.st with ports := ports, session := { a.st.session with records := records },
                  arrivals := a.st.arrivals.tail } := by
  obtain ⟨p, r, h⟩ := deliverAll_frame (arrange (a.st.arrivals.headD []) a.out)
    { a.st with arrivals := a.st.arrivals.tail }
  exact ⟨p, r, h⟩

/-- Messages that end no session leave the session unit as it is. -/
theorem deliverAll_session (l : List Msg) (s : State) (h : ∀ p, Msg.sessionEnd p ∉ l) :
    (l.foldl State.deliver s).session = s.session := by
  induction l generalizing s with
  | nil => rfl
  | cons m l ih =>
    rw [List.foldl_cons, ih _ fun p hp => h p (List.mem_cons_of_mem _ hp)]
    cases m with
    | respond p r payload => rfl
    | event p e => simp only [State.deliver]; split <;> rfl
    | sessionEnd p => exact absurd List.mem_cons_self (h p)

/-- A message for another port leaves a port's controller as it is. -/
theorem deliver_ports_other (s : State) (m : Msg) (p : PortId)
    (h : match m with
      | .respond q _ _ => q ≠ p
      | .event q _ => q ≠ p
      | .sessionEnd _ => True) : (s.deliver m).ports.get p = s.ports.get p := by
  cases m with
  | respond q r payload => exact PerPort.get_set_other _ _ fun e => h e.symm
  | event q e =>
    simp only [State.deliver]
    split
    · exact PerPort.get_set_other _ _ fun e => h e.symm
    · rfl
  | sessionEnd q => rfl

/-! ### Grants -/

/-- What a grant decision keeps of a transfer unit: all but how far its accesses have come. -/
def sameWork (u v : TransferUnit) : Prop :=
  v.cursor = u.cursor ∧ v.buffer.handle? = u.buffer.handle? ∧ v.buffer.range = u.buffer.range ∧
    v.buffer.isFetching = u.buffer.isFetching ∧
    v.job.map (fun j => { j with parts := [] }) = u.job.map fun j => { j with parts := [] }

theorem sameWork_refl (u : TransferUnit) : sameWork u u := ⟨rfl, rfl, rfl, rfl, rfl⟩

theorem sameWork_trans {u v w : TransferUnit} (h : sameWork u v) (k : sameWork v w) : sameWork u w :=
  ⟨k.1.trans h.1, k.2.1.trans h.2.1, k.2.2.1.trans h.2.2.1, k.2.2.2.1.trans h.2.2.2.1, k.2.2.2.2.trans h.2.2.2.2⟩

theorem grantAt_sameWork (u : TransferUnit) (b : BankId) : sameWork u (u.grantAt b) := by
  unfold TransferUnit.grantAt
  split
  · refine ⟨rfl, rfl, rfl, rfl, ?_⟩
    cases u.job <;> rfl
  · refine ⟨rfl, ?_, ?_, ?_, rfl⟩ <;> cases u.buffer <;> rfl

theorem grantTransfer_unit (s : State) (b : BankId) (p : PortId) (t : Part) (q : PortId) :
    sameWork (s.transfer.get q) ((grantTransfer s b p t).transfer.get q) := by
  show sameWork _ ((s.transfer.set p ((s.transfer.get p).grantAt b)).get q)
  by_cases h : q = p
  · subst h; rw [PerPort.get_set_same]; exact grantAt_sameWork _ b
  · rw [PerPort.get_set_other _ _ h]; exact sameWork_refl _

/-- A grant to a port changes banks and how far the port's accesses have come. -/
theorem grantPorts_frame (b : BankId) (l : List PortId) (s : State) :
    ∃ banks transfer, grantPorts s b l = { s with banks := banks, transfer := transfer } ∧
      ∀ p, sameWork (s.transfer.get p) (transfer.get p) := by
  induction l with
  | nil => exact ⟨s.banks, s.transfer, rfl, fun p => sameWork_refl _⟩
  | cons p l ih =>
    simp only [grantPorts]
    split
    · exact ih
    · rename_i t _ _; exact ⟨_, _, rfl, grantTransfer_unit s b p t⟩
    · exact ⟨_, s.transfer, rfl, fun p => sameWork_refl _⟩
    · split
      · exact ⟨_, s.transfer, rfl, fun p => sameWork_refl _⟩
      · rename_i t _ _ _ _ _; exact ⟨_, _, rfl, grantTransfer_unit s b p t⟩

/-- A grant decision changes the banks and how far the scan engine's and the ports' accesses have come. -/
theorem decideGrant_frame (s : State) (b : BankId) :
    ∃ banks fetch transfer, decideGrant s b =
      { s with banks := banks, scan := { s.scan with fetch := fetch }, transfer := transfer } ∧
      ∀ p, sameWork (s.transfer.get p) (transfer.get p) := by
  unfold decideGrant
  split
  · exact ⟨s.banks, s.scan.fetch, s.transfer, rfl, fun p => sameWork_refl _⟩
  · split
    · exact ⟨_, s.scan.fetch, s.transfer, rfl, fun p => sameWork_refl _⟩
    · split
      · exact ⟨_, s.scan.fetch, s.transfer, rfl, fun p => sameWork_refl _⟩
      · exact ⟨_, _, s.transfer, rfl, fun p => sameWork_refl _⟩
    · exact ⟨_, _, s.transfer, rfl, fun p => sameWork_refl _⟩
    · obtain ⟨k, t, h, hw⟩ := grantPorts_frame b (turnOrder (s.banks.get b).pointer) s
      exact ⟨k, s.scan.fetch, t, h, hw⟩

/-- The decisions of the idle banks change the banks and how far accesses have come. -/
theorem arbitrate_frame (s : State) :
    ∃ banks fetch transfer, arbitrate s =
      { s with banks := banks, scan := { s.scan with fetch := fetch }, transfer := transfer } ∧
      ∀ p, sameWork (s.transfer.get p) (transfer.get p) := by
  have h : ∀ (l : List BankId) (s : State), ∃ banks fetch transfer, l.foldl decideGrant s =
      { s with banks := banks, scan := { s.scan with fetch := fetch }, transfer := transfer } ∧
      ∀ p, sameWork (s.transfer.get p) (transfer.get p) := by
    intro l
    induction l with
    | nil => exact fun s => ⟨s.banks, s.scan.fetch, s.transfer, rfl, fun p => sameWork_refl _⟩
    | cons b l ih =>
      intro s
      obtain ⟨k, f, t, h, hw⟩ := decideGrant_frame s b
      obtain ⟨k', f', t', h', hw'⟩ := ih (decideGrant s b)
      refine ⟨k', f', t', by rw [List.foldl_cons, h', h], fun p => ?_⟩
      have := hw' p
      rw [h] at this
      exact sameWork_trans (hw p) this
  exact h allBanks s

section
variable (s : State)

@[simp] theorem arbitrate_pending : (arbitrate s).pending = s.pending := by
  obtain ⟨_, _, _, h, _⟩ := arbitrate_frame s; rw [h]
@[simp] theorem arbitrate_resetN : (arbitrate s).resetN = s.resetN := by
  obtain ⟨_, _, _, h, _⟩ := arbitrate_frame s; rw [h]
@[simp] theorem arbitrate_ports : (arbitrate s).ports = s.ports := by
  obtain ⟨_, _, _, h, _⟩ := arbitrate_frame s; rw [h]
@[simp] theorem arbitrate_session : (arbitrate s).session = s.session := by
  obtain ⟨_, _, _, h, _⟩ := arbitrate_frame s; rw [h]
@[simp] theorem arbitrate_commit : (arbitrate s).commit = s.commit := by
  obtain ⟨_, _, _, h, _⟩ := arbitrate_frame s; rw [h]
@[simp] theorem arbitrate_check : (arbitrate s).check = s.check := by
  obtain ⟨_, _, _, h, _⟩ := arbitrate_frame s; rw [h]
@[simp] theorem arbitrate_extents : (arbitrate s).extents = s.extents := by
  obtain ⟨_, _, _, h, _⟩ := arbitrate_frame s; rw [h]
@[simp] theorem arbitrate_store : (arbitrate s).store = s.store := by
  obtain ⟨_, _, _, h, _⟩ := arbitrate_frame s; rw [h]
@[simp] theorem arbitrate_refresh : (arbitrate s).refresh = s.refresh := by
  obtain ⟨_, _, _, h, _⟩ := arbitrate_frame s; rw [h]
@[simp] theorem arbitrate_palette : (arbitrate s).palette = s.palette := by
  obtain ⟨_, _, _, h, _⟩ := arbitrate_frame s; rw [h]
@[simp] theorem arbitrate_freeCount : (arbitrate s).freeCount = s.freeCount := by
  obtain ⟨_, _, _, h, _⟩ := arbitrate_frame s; rw [h]
@[simp] theorem arbitrate_arrivals : (arbitrate s).arrivals = s.arrivals := by
  obtain ⟨_, _, _, h, _⟩ := arbitrate_frame s; rw [h]
/-- Of the scan engine only the fetch list can change. -/
@[simp] theorem arbitrate_scan : { (arbitrate s).scan with fetch := s.scan.fetch } = s.scan := by
  obtain ⟨_, _, _, h, _⟩ := arbitrate_frame s; rw [h]
theorem arbitrate_unit (p : PortId) : sameWork (s.transfer.get p) ((arbitrate s).transfer.get p) := by
  obtain ⟨_, _, _, h, hw⟩ := arbitrate_frame s; rw [h]; exact hw p

@[simp] theorem arbitrate_slot (l : Fin 16) : (arbitrate s).slot l = s.slot l := by simp [State.slot]
@[simp] theorem arbitrate_window (n : Fin 8) : (arbitrate s).window n = s.window n := by simp [State.window]
@[simp] theorem arbitrate_extent (h : Fin 32) : (arbitrate s).extent h = s.extent h := by simp [State.extent]
@[simp] theorem arbitrate_block (b : Fin 64) : (arbitrate s).block b = s.block b := by simp [State.block]
end

/-! ### Transfer units -/

/-- Emptying a buffer changes banks and that port's transfer unit; the cursor stays and the buffer is EMPTY. -/
theorem emptyBuffer_frame (p : PortId) (s : State) :
    ∃ banks job, emptyBuffer p s =
      { s with banks := banks,
               transfer := s.transfer.set p { cursor := (s.transfer.get p).cursor, buffer := .empty, job := job } } ∧
      ((s.transfer.get p).job = none → job = none) := by
  by_cases hf : (s.transfer.get p).buffer.isFetching = true
  · simp only [emptyBuffer, hf, if_true]
    exact ⟨_, _, rfl, fun h => by simp [h]⟩
  · simp only [emptyBuffer, hf]
    exact ⟨s.banks, _, rfl, fun h => by simp [h]⟩

/-- A write notice changes banks and transfer units, and no cursor. -/
theorem noticeWrite_frame (g lo hi : Nat) (s : State) :
    ∃ banks transfer, noticeWrite g lo hi s = { s with banks := banks, transfer := transfer } ∧
      ∀ p, (transfer.get p).cursor = (s.transfer.get p).cursor := by
  have h : ∀ (l : List PortId) (s : State), ∃ banks transfer, l.foldl (takeWriteNotice g lo hi) s =
      { s with banks := banks, transfer := transfer } ∧
      ∀ p, (transfer.get p).cursor = (s.transfer.get p).cursor := by
    intro l
    induction l with
    | nil => exact fun s => ⟨s.banks, s.transfer, rfl, fun p => rfl⟩
    | cons q l ih =>
      intro s
      obtain ⟨k, t, h, hc⟩ := ih (takeWriteNotice g lo hi s q)
      rw [List.foldl_cons, h]
      by_cases hm : bufferMeets s (s.transfer.get q) g lo hi = true
      · obtain ⟨k', j, h', _⟩ := emptyBuffer_frame q s
        rw [takeWriteNotice, if_pos hm, h']
        refine ⟨k, t, rfl, fun p => ?_⟩
        rw [hc p, takeWriteNotice, if_pos hm, h']
        by_cases hp : p = q
        · subst hp; simp
        · simp [PerPort.get_set_other _ _ hp]
      · rw [takeWriteNotice, if_neg hm]
        refine ⟨k, t, rfl, fun p => ?_⟩
        rw [hc p, takeWriteNotice, if_neg hm]
  exact h allPorts s

/-- Losing an extent changes banks and transfer units. -/
theorem loseExtent_frame (h : Fin 32) (r : Result) (p : PortId) (s : State) :
    ∃ banks transfer, (loseExtent h r p s).st = { s with banks := banks, transfer := transfer } := by
  simp only [loseExtent]
  generalize hs : (if (s.transfer.get p).cursor.map Cursor.handle = some h then
    s.setTransfer p { s.transfer.get p with cursor := none } else s) = u
  have hu : ∃ transfer, u = { s with transfer := transfer } := by
    subst hs
    split
    · exact ⟨_, rfl⟩
    · exact ⟨s.transfer, rfl⟩
  obtain ⟨t, hu⟩ := hu
  have hg : ∃ banks transfer, (if (s.transfer.get p).buffer.handle? = some h then emptyBuffer p u else u) =
      { u with banks := banks, transfer := transfer } := by
    split
    · obtain ⟨k, j, e, _⟩ := emptyBuffer_frame p u; exact ⟨k, _, e⟩
    · exact ⟨u.banks, u.transfer, rfl⟩
  obtain ⟨k, t', hg⟩ := hg
  rw [hg, hu]
  split
  · split
    · exact ⟨_, _, rfl⟩
    · exact ⟨k, t', rfl⟩
  · exact ⟨k, t', rfl⟩

/-! ### The extent manager -/

/-- Freeing an extent changes the extent manager, banks and transfer units. -/
theorem releaseExtent_frame (h : Fin 32) (s : State) :
    ∃ extents banks transfer, (releaseExtent h s).st =
      { s with extents := extents, banks := banks, transfer := transfer } := by
  have hg : ∀ (l : List PortId) (s : State), ∃ banks, l.foldl (fun s p => giveUpClear s h p) s =
      { s with banks := banks } := by
    intro l
    induction l with
    | nil => exact fun s => ⟨s.banks, rfl⟩
    | cons p l ih =>
      intro s
      obtain ⟨k, e⟩ := ih (giveUpClear s h p)
      refine ⟨k, ?_⟩
      rw [List.foldl_cons, e]
      unfold giveUpClear
      split <;> rfl
  have hn : ∀ (l : List PortId) (a : Act), ∃ banks transfer,
      (a.forEach l fun p => loseExtent h .noObject p).st = { a.st with banks := banks, transfer := transfer } := by
    intro l
    induction l with
    | nil => exact fun a => ⟨a.st.banks, a.st.transfer, rfl⟩
    | cons p l ih =>
      intro a
      obtain ⟨k, t, e⟩ := ih (a.andThen (loseExtent h .noObject p))
      obtain ⟨k', t', e'⟩ := loseExtent_frame h .noObject p a.st
      refine ⟨k, t, ?_⟩
      show ((a.andThen (loseExtent h .noObject p)).forEach l fun p => loseExtent h .noObject p).st = _
      rw [e]
      show { (loseExtent h .noObject p a.st).st with banks := k, transfer := t } = _
      rw [e']
  unfold releaseExtent
  split
  · exact ⟨s.extents, s.banks, s.transfer, rfl⟩
  · rename_i e he
    obtain ⟨k, hk⟩ := hg allPorts s
    obtain ⟨k', t', h'⟩ := hn allPorts
      (.quiet ((leaveClearLists (allPorts.foldl (fun s p => giveUpClear s h p) s) h).setExtent h none))
    refine ⟨((leaveClearLists s h).setExtent h none).extents, k', t', ?_⟩
    show ((Act.quiet ((leaveClearLists (allPorts.foldl (fun s p => giveUpClear s h p) s) h).setExtent h none)).forEach
      allPorts fun p => loseExtent h .noObject p).st = _
    rw [h']
    simp only [Act.quiet, leaveClearLists, State.setExtent, hk]

end Sys2Proof.Machine
end

