-- ==== Sys2Proof/Laws/Serve.lean ====
section
/-! SUPPORT. What a step delivers, when a command has its effect, and what an answer changes. -/

namespace Sys2Proof.Machine

/-! ### Arrival -/

/-- What an arrival order can do: every message arrives once, and those of one origin in the order they were sent. -/
theorem arrange_keeps_origins (order : List Origin) (out : List (Origin × Msg)) :
    ∃ arrived : List (Origin × Msg), arrived.Perm out ∧
      (∀ o, arrived.filter (fun m => decide (m.1 = o)) = out.filter fun m => decide (m.1 = o)) ∧
      arrange order out = arrived.map Prod.snd := by
  induction order generalizing out with
  | nil => exact ⟨out, .refl _, fun _ => rfl, rfl⟩
  | cons o rest ih =>
    obtain ⟨l, perm, kept, eq⟩ := ih (out.filter fun m => decide (m.1 ≠ o))
    refine ⟨(out.filter fun m => decide (m.1 = o)) ++ l, ?_, fun o' => ?_, ?_⟩
    · simpa using (List.Perm.append_left _ perm).trans
        (by simpa using List.filter_append_perm (fun m : Origin × Msg => decide (m.1 = o)) out)
    · rw [List.filter_append, kept, List.filter_filter, List.filter_filter]
      by_cases h : o' = o
      · subst h
        simp
      · rw [List.filter_eq_nil_iff.2 (fun a _ => by simp; rintro rfl h'; exact h h'), List.nil_append]
        exact List.filter_congr fun a _ => by simp; rintro rfl; exact h
    · rw [List.map_append, ← eq]; rfl

/-- Every message arrives once, whatever the order. -/
theorem arrange_perm (order : List Origin) (out : List (Origin × Msg)) :
    (arrange order out).Perm (out.map Prod.snd) := by
  obtain ⟨l, perm, -, eq⟩ := arrange_keeps_origins order out
  exact eq ▸ perm.map _

/-- A message sent alone arrives alone. -/
@[simp] theorem arrange_single (order : List Origin) (m : Origin × Msg) : arrange order [m] = [m.2] :=
  List.perm_singleton.1 (arrange_perm order [m])

@[simp] theorem arrange_nil (order : List Origin) : arrange order [] = [] :=
  List.perm_nil.1 (arrange_perm order [])

/-- Nothing sent: a step uses up one entry of the arrival orders and delivers nothing. -/
@[simp] theorem settle_quiet (s : State) : (Act.quiet s).settle = { s with arrivals := s.arrivals.tail } := by
  simp [Act.settle, Act.quiet]

/-! ### When a command has its effect -/

theorem ready_resetN {s : State} (h : ready s = true) : s.resetN = true := by
  simp only [ready, Bool.and_eq_true] at h; exact h.1

/-- With nothing due, nothing is taken before a command. -/
theorem takeDue_of_noneDue {s : State} (h : s.noneDue = true) : takeDue s = s := by
  simp only [State.noneDue, Bool.and_eq_true, List.all_eq_true, Bool.not_eq_true'] at h
  have e : ∀ l : List PortId, l.foldl takeExpiry s = s := by
    intro l
    induction l with
    | nil => rfl
    | cons p rest ih =>
      have hp : s.expiryDue p = false := h.1 p (by cases p <;> decide)
      simp [List.foldl_cons, takeExpiry, hp, ih]
  simp [takeDue, e, takeTimeout, h.2]

/-- A command has its effect on a state that is ready for it. -/
theorem whenRunning_ready {s : State} (f : State → State) (h : ready s = true) : whenRunning f s = f s := by
  simp only [ready, Bool.and_eq_true] at h
  simp [whenRunning, h.1, takeDue_of_noneDue h.2]

/-- While RESET_N is low no command is taken. -/
theorem whenRunning_reset {s : State} (f : State → State) (h : s.resetN = false) : whenRunning f s = s := by
  simp [whenRunning, h]

/-! ### Requests -/

/-- What `asks` says. -/
theorem asks_iff {s : State} {p : PortId} {r : Request} :
    asks s p r = true ↔ ready s = true ∧ (s.ports.get p).executing = false ∧ (s.ports.get p).discard = false ∧
      (s.transfer.get p).job = none ∧ (s.ports.get p).requests.head? = some r := by
  simp [asks, and_assoc]

/-- What `asksFor` says. -/
theorem asksFor_iff {s : State} {p : PortId} {r : Request} {code : Byte} {n : Nat} :
    asksFor s p r code n = true ↔
      asks s p r = true ∧ s.sessionState p = .joined ∧ r.code = code ∧ r.payload.length = n := by
  simp [asksFor, State.joined, and_assoc]

/-- A request that is due executes. -/
theorem serve_asks {s : State} {p : PortId} {r : Request} (w : RequestRow) (v : Service)
    (body : List Byte → State → Act) (finish : Act → State) (h : asks s p r = true) (hw : w.takes r = true) :
    serve p w v body finish s = finish (execute p w v r body s) := by
  obtain ⟨hr, he, -, -, hq⟩ := asks_iff.1 h
  simp [serve, whenRunning_ready _ hr, PortController.nextRequest, he, hq, hw]

/-- A JOINED port's request of the right length reaches the block that owns it. -/
theorem execute_joined {s : State} {p : PortId} {r : Request} {w : RequestRow} (v : Service)
    (body : List Byte → State → Act) (hl : w.lengths.contains r.payload.length = true)
    (hs : s.sessionState p = .joined) : execute p w v r body s = body r.payload s := by
  unfold execute
  rw [if_pos hl, hs]
  rfl

/-- A Stage row takes a Stage request of its own kind, of an unlisted kind and without a byte. -/
theorem stageRow_takes {k : Byte} {r : Request} (hc : r.code = stageCode)
    (h : ∀ b, r.payload.head? = some b → b = k ∨ b.toNat = 0 ∨ 11 < b.toNat) : (stageRow k).takes r = true := by
  simp only [RequestRow.takes, stageRow, hc]
  cases hr : r.payload.head? with
  | none => simp
  | some b =>
    simp only [decide_true, Bool.true_and, kindListed, Bool.or_eq_true, decide_eq_true_eq]
    rcases h b hr with e | e | e
    · exact .inl e
    · simp [e]
    · simp [show ¬b.toNat ≤ 11 by omega]

/-- No edit is read from bytes that begin with an unlisted kind. -/
theorem decodeEdit_unlisted {b : Byte} {rest : List Byte} (h : b.toNat = 0 ∨ 11 < b.toNat) :
    decodeEdit (b :: rest) = none := by
  simp only [decodeEdit, fieldByte, List.getD_cons_zero]
  split <;> simp_all

/-- An answer alone: the response goes out and the request is done. -/
theorem settle_answer {s : State} {p : PortId} {r : Request} (result : Result) (payload : List Byte) (u : State)
    (h : asks s p r = true) (hp : u.ports = s.ports) :
    (answer p result payload u).settle = u.answered p r.tag result payload := by
  obtain ⟨-, he, hd, -, hq⟩ := asks_iff.1 h
  obtain ⟨rest, hrest⟩ : ∃ rest, (s.ports.get p).requests = r :: rest := by
    cases hr : (s.ports.get p).requests with
    | nil => simp [hr] at hq
    | cons a rest => exact ⟨rest, by simp [hr] at hq; simp [hq]⟩
  have hc : (s.ports.get p).takeResponse result payload =
      { s.ports.get p with requests := (s.ports.get p).requests.tail,
                           outbound := (s.ports.get p).outbound ++ [.response r.tag result payload] } := by
    simp [PortController.takeResponse, hrest, he, hd]
  simp [answer, Act.settle, Act.send, Act.quiet, State.deliver, State.setPort, State.answered, hp, hc]

end Sys2Proof.Machine
end

