-- ==== Sys2Proof/Laws/Completion.lean ====
section
/-! SUPPORT. What an access completion can change, said once. -/

namespace Sys2Proof.Machine

/-- An action that changes banks and transfer units alone, and ends no session. -/
def onTransfers (s : State) (a : Act) : Prop :=
  (∃ banks transfer, a.st = { s with banks := banks, transfer := transfer }) ∧
    ∀ q, Msg.sessionEnd q ∉ a.out.map Prod.snd

theorem onTransfers_quiet (s : State) : onTransfers s (.quiet s) :=
  ⟨⟨s.banks, s.transfer, rfl⟩, by simp [Act.quiet]⟩

/-- The write notice of an access changes banks and transfer units, and no cursor. -/
theorem sendWriteNotice_frame (a : Access) (s : State) :
    ∃ banks transfer, sendWriteNotice a s = { s with banks := banks, transfer := transfer } ∧
      ∀ p, (transfer.get p).cursor = (s.transfer.get p).cursor := by
  unfold sendWriteNotice
  split
  · exact noticeWrite_frame _ _ _ _
  · exact noticeWrite_frame _ _ _ _
  · exact ⟨s.banks, s.transfer, rfl, fun _ => rfl⟩

/-- Read-ahead changes the transfer units alone. -/
theorem startReadAhead_frame (p : PortId) (s : State) :
    ∃ transfer, startReadAhead p s = { s with transfer := transfer } := by
  simp only [startReadAhead]
  split
  · exact ⟨_, rfl⟩
  · split
    · exact ⟨_, rfl⟩
    · split <;> exact ⟨_, rfl⟩

/-- The end of a Read changes banks and transfer units, and sends its one response. -/
theorem finishRead_frame (p : PortId) (j : Job) (bytes : List Byte) (s : State) :
    onTransfers s (finishRead p j bytes s) ∧
      (finishRead p j bytes s).out = [(.response, .respond p (damagedIf j.damage) bytes)] := by
  have ho : (finishRead p j bytes s).out = [(.response, .respond p (damagedIf j.damage) bytes)] := by
    simp [finishRead, Act.send, Act.quiet]
  refine ⟨⟨?_, by simp [ho]⟩, ho⟩
  simp only [finishRead, Act.send, Act.quiet]
  split
  · exact ⟨_, _, rfl⟩
  · obtain ⟨b, w, h, _⟩ := emptyBuffer_frame p (dropJob p s)
    rw [h]
    obtain ⟨t, ht⟩ := startReadAhead_frame p (advanceCursor p bytes.length
      { dropJob p s with
        banks := b
        transfer := (dropJob p s).transfer.set p
          { cursor := ((dropJob p s).transfer.get p).cursor, buffer := .empty, job := w } })
    rw [ht]
    exact ⟨_, _, rfl⟩

/-- The end of a transfer changes banks and transfer units. -/
theorem finishJob_frame (p : PortId) (s : State) : onTransfers s (finishJob p s) := by
  unfold finishJob
  split
  · exact onTransfers_quiet s
  · split
    · exact onTransfers_quiet s
    · split
      · exact (finishRead_frame p _ _ s).1
      · exact onTransfers_quiet s
    · split
      · refine ⟨?_, by simp [Act.quiet, Act.send]⟩
        simp only [Act.send, Act.quiet]
        split <;> exact ⟨_, _, rfl⟩
      · exact onTransfers_quiet s
    · split
      · exact ⟨⟨_, _, rfl⟩, by simp [Act.quiet, Act.send]⟩
      · exact onTransfers_quiet s

/-- The end of a read-ahead changes banks and transfer units. -/
theorem finishFetch_frame (p : PortId) (s : State) : onTransfers s (finishFetch p s) := by
  have hq : ∀ u : TransferUnit, onTransfers s (.quiet (s.setTransfer p u)) := fun u =>
    ⟨⟨_, _, rfl⟩, by simp [Act.quiet]⟩
  simp only [finishFetch]
  split
  · split
    · split
      · split
        · obtain ⟨⟨⟨b, t, h⟩, hs⟩, _⟩ := finishRead_frame p ‹_› _ _
          exact ⟨⟨b, t, by rw [h]; rfl⟩, hs⟩
        · exact hq _
      · exact hq _
    · exact onTransfers_quiet s
  · exact onTransfers_quiet s

/-- A clear write that completes changes the extent manager, and ends no session. -/
theorem clearCompleted_frame (p : PortId) (g : Nat) (s : State) :
    (∃ extents, (clearCompleted p g s).st = { s with extents := extents }) ∧
      ∀ q, Msg.sessionEnd q ∉ (clearCompleted p g s).out.map Prod.snd := by
  unfold clearCompleted
  split
  · exact ⟨⟨_, rfl⟩, by simp [Act.quiet]⟩
  · split
    · exact ⟨⟨_, rfl⟩, by simp [Act.quiet]⟩
    · split
      · split
        · exact ⟨⟨_, rfl⟩, by simp [Act.quiet]⟩
        · exact ⟨⟨_, rfl⟩, by simp [Act.quiet, Act.sendAll]⟩
      · exact ⟨⟨_, rfl⟩, by simp [Act.quiet]⟩

/-- Handing over a result changes extents, banks, transfer units and the fetch list, and ends no session. -/
theorem handOver_frame (a : Access) (b : BankId) (bytes : List Byte) (s : State) :
    (∃ extents banks transfer fetch, (handOver a b bytes s).st =
      { s with extents := extents, banks := banks, transfer := transfer,
               scan := { s.scan with fetch := fetch } }) ∧
      ∀ q, Msg.sessionEnd q ∉ (handOver a b bytes s).out.map Prod.snd := by
  unfold handOver
  split
  · split
    · exact ⟨⟨_, _, _, s.scan.fetch, rfl⟩, by simp [Act.quiet]⟩
    · exact ⟨⟨_, _, _, _, rfl⟩, by simp [Act.quiet]⟩
    · simp only [transferCompleted]
      split
      · obtain ⟨⟨k, t, h⟩, hs⟩ := finishJob_frame ‹_› _
        exact ⟨⟨_, _, _, s.scan.fetch, by rw [h]; rfl⟩, hs⟩
      · obtain ⟨⟨k, t, h⟩, hs⟩ := finishFetch_frame ‹_› _
        exact ⟨⟨_, _, _, s.scan.fetch, by rw [h]; rfl⟩, hs⟩
    · obtain ⟨⟨e, h⟩, hs⟩ := clearCompleted_frame ‹_› a.row s
      exact ⟨⟨_, s.banks, s.transfer, s.scan.fetch, by rw [h]⟩, hs⟩
  · exact ⟨⟨_, _, _, s.scan.fetch, rfl⟩, by simp [Act.quiet]⟩

/-- What arrives is what was sent. -/
theorem mem_arrange (order : List Origin) (out : List (Origin × Msg)) (m : Msg) :
    m ∈ arrange order out ↔ m ∈ out.map Prod.snd := (arrange_perm order out).mem_iff

/-- A completed access changes the store by its kind and its bank's refresh state by its row; besides them it changes
controllers, extents, banks, transfer units and the fetch list. -/
theorem completion_frame (b : BankId) (a : Access) (s : State) :
    ∃ ports extents banks transfer fetch, (completeAccess b a s).settleAndArbitrate =
      { s with
        ports := ports, extents := extents, banks := banks, transfer := transfer
        scan := { s.scan with fetch := fetch }
        store := s.store.complete a
        refresh := s.refresh.set b ((s.refresh.get b).complete (bankRowOf a.row))
        arrivals := s.arrivals.tail } := by
  have hst : (∃ extents banks transfer fetch, (completeAccess b a s).st =
      { s with
        extents := extents, banks := banks, transfer := transfer
        scan := { s.scan with fetch := fetch }
        store := s.store.complete a
        refresh := s.refresh.set b ((s.refresh.get b).complete (bankRowOf a.row)) }) ∧
      ∀ q, Msg.sessionEnd q ∉ (completeAccess b a s).out.map Prod.snd := by
    simp only [completeAccess]
    generalize hu : ((({ s with store := s.store.complete a } : State).setBank b
      { s.banks.get b with inFlight := none }).setRefresh b ((s.refresh.get b).complete (bankRowOf a.row))) = u
    obtain ⟨⟨e, k, t, f, h⟩, hs⟩ := handOver_frame a b (handedOver s.store a) (sendWriteNotice a u)
    obtain ⟨k', t', h', _⟩ := sendWriteNotice_frame a u
    refine ⟨⟨e, k, t, f, ?_⟩, ?_⟩
    · subst hu
      erw [h, h']; rfl
    · subst hu
      exact hs
  obtain ⟨⟨e, k, t, f, hst⟩, hq⟩ := hst
  have hses : (completeAccess b a s).settle.session = s.session := by
    simp only [Act.settle]
    rw [deliverAll_session]
    · show (completeAccess b a s).st.session = s.session
      rw [hst]
    · intro p
      rw [mem_arrange]
      exact hq p
  obtain ⟨po, re, h1⟩ := settle_frame (completeAccess b a s)
  obtain ⟨k', f', t', h2, _⟩ := arbitrate_frame (completeAccess b a s).settle
  rw [h1, hst] at hses
  simp only at hses
  refine ⟨po, e, k', t', f', ?_⟩
  rw [Act.settleAndArbitrate, h2, h1, hst]
  simp [hses]

end Sys2Proof.Machine
end

