-- ==== Sys2Proof/Laws/Transfers.lean ====
section
/-! SUPPORT. What emptying a read-ahead buffer, losing an extent, a write notice, starting read-ahead, a notice of damage,
the marking of one access in a list, a grant decision and a run of deliveries can do, each said once. -/

namespace Sys2Proof.Machine

/-- Emptying the buffer of a port without a transfer in progress: a fetch into it is no longer wanted at the banks. -/
theorem emptyBuffer_eq {s : State} {p : PortId} (h : (s.transfer.get p).job = none) :
    emptyBuffer p s = { s with
      banks := banksGivenUp s p
      transfer := s.transfer.set p { cursor := (s.transfer.get p).cursor, buffer := .empty, job := none } } := by
  cases hb : (s.transfer.get p).buffer <;>
    simp only [emptyBuffer, banksGivenUp, hb, ReadAhead.isFetching, if_true, Bool.false_eq_true, if_false, h,
      Option.map] <;> rfl

/-- The part granted is the first that waits at the bank. -/
theorem markGranted_at {b : BankId} {t : Part} {before after : List Part} (ht : t.waitsAt b = true)
    (hb : ∀ x ∈ before, x.waitsAt b = false) :
    markGranted b (before ++ t :: after) = before ++ { t with status := .granted } :: after := by
  induction before with
  | nil => simp [markGranted, ht]
  | cons x l ih => simp_all [markGranted]

/-- The part completed is the first in flight at the bank. -/
theorem markDone_at {b : BankId} {bytes : List Byte} {t : Part} {before after : List Part}
    (ht : t.grantedAt b = true) (hb : ∀ x ∈ before, x.grantedAt b = false) :
    markDone b bytes (before ++ t :: after) = before ++ { t with status := .done bytes } :: after := by
  induction before with
  | nil => simp [markDone, ht]
  | cons x l ih => simp_all [markDone]

/-- The entry of the fetch list granted is the first that waits at the bank. -/
theorem markFetchGranted_at {b : BankId} {f : FetchPart} {before after : List FetchPart} (hf : f.part.waitsAt b = true)
    (hb : ∀ x ∈ before, x.part.waitsAt b = false) :
    markFetchGranted b (before ++ f :: after) =
      before ++ { f with part := { f.part with status := .granted } } :: after := by
  induction before with
  | nil => simp [markFetchGranted, hf]
  | cons x l ih => simp_all [markFetchGranted]

/-- The entry of the fetch list completed is the first in flight at the bank. -/
theorem scanCompleted_at {b : BankId} {bytes : List Byte} {f : FetchPart} {before after : List FetchPart}
    (hf : f.part.grantedAt b = true) (hb : ∀ x ∈ before, x.part.grantedAt b = false) :
    scanCompleted b bytes (before ++ f :: after) =
      before ++ { f with part := { f.part with status := .done bytes } } :: after := by
  induction before with
  | nil => simp [scanCompleted, hf]
  | cons x l ih => simp_all [scanCompleted]

/-- Emptying the buffer leaves the cursor, and a Read that waited for the buffer makes its own accesses. -/
theorem emptyBuffer_unit (p : PortId) (s : State) :
    (emptyBuffer p s).transfer.get p =
      { s.transfer.get p with
        buffer := .empty, job := (s.transfer.get p).job.map fun j => j.standAlone (s.firstRowOf j.handle) } := by
  simp only [emptyBuffer]; split <;> simp [State.setTransfer, State.giveUp]

/-- Emptying one buffer leaves the other units as they are. -/
theorem emptyBuffer_other {p q : PortId} (s : State) (h : q ≠ p) :
    (emptyBuffer p s).transfer.get q = s.transfer.get q := by
  simp only [emptyBuffer]; split <;> simp [State.setTransfer, State.giveUp, PerPort.get_set_other _ _ h]

/-- Emptying the buffer gives up the accesses in flight of a fetch. -/
theorem emptyBuffer_banks (p : PortId) (s : State) : (emptyBuffer p s).banks = banksGivenUp s p := by
  cases hb : (s.transfer.get p).buffer <;>
    simp only [emptyBuffer, banksGivenUp, hb, ReadAhead.isFetching, if_true, Bool.false_eq_true, if_false] <;> rfl

/-- Presenting its own accesses changes neither that a transfer is a Read nor its extent. -/
theorem standAlone_reads (j : Job) (n : Nat) :
    (j.standAlone n).isRead = j.isRead ∧ (j.standAlone n).handle = j.handle := by
  unfold Job.standAlone; split <;> simp_all [Job.isRead]

/-- A transfer unit after the loss of an extent; `row` gives the first row of each extent. -/
def TransferUnit.losing (u : TransferUnit) (h : Fin 32) (row : Fin 32 → Nat) : TransferUnit :=
  { cursor := u.cursor.filter fun c => decide (c.handle ≠ h)
    buffer := if u.buffer.handle? = some h then .empty else u.buffer
    job := u.job.bind fun j =>
      if j.isRead && decide (j.handle = h) then none
      else some (if u.buffer.handle? = some h then j.standAlone (row j.handle) else j) }

/-- The loss of an extent, told to a transfer unit. -/
theorem loseExtent_unit (h : Fin 32) (result : Result) (p : PortId) (s : State) :
    (loseExtent h result p s).st.transfer.get p = (s.transfer.get p).losing h s.firstRowOf := by
  obtain ⟨u, hu⟩ : ∃ u, s.transfer.get p = u := ⟨_, rfl⟩
  obtain ⟨s1, h1⟩ : ∃ s1, (if u.cursor.map Cursor.handle = some h then s.setTransfer p { u with cursor := none }
      else s) = s1 := ⟨_, rfl⟩
  have hf : s1.firstRowOf = s.firstRowOf := by subst h1; split <;> rfl
  have hc : s1.transfer.get p = { u with cursor := u.cursor.filter fun c => decide (c.handle ≠ h) } := by
    subst h1
    obtain ⟨cursor, buffer, job⟩ := u
    cases cursor with
    | none => simp [hu]
    | some c => by_cases e : c.handle = h <;> simp [hu, e, State.setTransfer, Option.filter]
  obtain ⟨s2, h2⟩ : ∃ s2, (if u.buffer.handle? = some h then emptyBuffer p s1 else s1) = s2 := ⟨_, rfl⟩
  have hb : s2.transfer.get p =
      { cursor := u.cursor.filter fun c => decide (c.handle ≠ h)
        buffer := if u.buffer.handle? = some h then .empty else u.buffer
        job := u.job.map fun j => if u.buffer.handle? = some h then j.standAlone (s.firstRowOf j.handle) else j } := by
    subst h2; split <;> simp_all [emptyBuffer_unit]
  simp only [loseExtent, hu, h1]
  rw [h2, hb, TransferUnit.losing]
  cases hj : u.job with
  | none => simp [Act.quiet, hb, hj]
  | some j =>
    have hr : ∀ k : Job, k = (if u.buffer.handle? = some h then j.standAlone (s.firstRowOf j.handle) else j) →
        k.isRead = j.isRead ∧ k.handle = j.handle := by
      rintro k rfl; split <;> simp [standAlone_reads]
    obtain ⟨r1, r2⟩ := hr _ rfl
    simp only [Option.map, r1, r2]
    split <;> simp_all [endRead, dropJob, Act.send, Act.quiet, State.setTransfer, State.giveUp]

/-- The loss told to one transfer unit leaves the others as they are. -/
theorem loseExtent_other {h : Fin 32} {result : Result} {p q : PortId} (s : State) (hq : q ≠ p) :
    (loseExtent h result p s).st.transfer.get q = s.transfer.get q := by
  simp only [loseExtent]
  split <;> (try split) <;> (repeat' split) <;>
    simp [Act.quiet, endRead, Act.send, dropJob, State.setTransfer, PerPort.get_set_other _ _ hq, emptyBuffer_other _ hq,
      State.giveUp]

/-- What a write notice makes of a transfer unit. -/
theorem takeWriteNotice_unit (g lo hi : Nat) (s : State) (p : PortId) :
    (takeWriteNotice g lo hi s p).transfer.get p =
      if bufferMeets s (s.transfer.get p) g lo hi then
        { s.transfer.get p with
          buffer := .empty, job := (s.transfer.get p).job.map fun j => j.standAlone (s.firstRowOf j.handle) }
      else s.transfer.get p := by
  unfold takeWriteNotice; split <;> simp [emptyBuffer_unit]

/-- A write notice to one transfer unit leaves the others as they are. -/
theorem takeWriteNotice_other {p q : PortId} (g lo hi : Nat) (s : State) (h : q ≠ p) :
    (takeWriteNotice g lo hi s p).transfer.get q = s.transfer.get q := by
  unfold takeWriteNotice; split <;> simp [emptyBuffer_other _ h]

/-- What the teardown start makes of a transfer unit: its transfer goes on detached. -/
theorem transferTeardown_unit (p : PortId) (s : State) :
    (transferTeardown p s).transfer.get p =
      { cursor := none, buffer := .empty
        job := (s.transfer.get p).job.map fun j => { j.standAlone (s.firstRowOf j.handle) with detached := true } } := by
  simp [transferTeardown, State.setTransfer, emptyBuffer_unit, Function.comp_def]

/-- At the teardown start the accesses in flight of a fetch are given up. -/
theorem transferTeardown_banks (p : PortId) (s : State) : (transferTeardown p s).banks = banksGivenUp s p :=
  emptyBuffer_banks p s

/-- Read-ahead from the cursor, the buffer being EMPTY. -/
theorem startReadAhead_eq {s : State} {p : PortId} {c : Cursor} {e : Extent}
    (hb : (s.transfer.get p).buffer = .empty) (hc : (s.transfer.get p).cursor = some c)
    (he : s.extent c.handle = some e) :
    startReadAhead p s =
      s.setTransfer p { s.transfer.get p with buffer := readAheadFrom c.handle e c.offset } := by
  have small : min 64 (e.rows * 512 - c.offset) = 0 ↔ e.rows * 512 - c.offset = 0 := by omega
  obtain ⟨u, hu⟩ : ∃ u, s.transfer.get p = u := ⟨_, rfl⟩
  have same : s.setTransfer p u = s := by simp [State.setTransfer, ← hu]
  obtain ⟨cursor, buffer, job⟩ := u
  simp only [hu] at hb hc
  subst hb hc
  simp only [startReadAhead, hu, he, readAheadFrom, Extent.size, rowBytes, small]
  split
  · exact same.symm
  · rfl

/-- What a notice of damage makes of one transfer unit: its buffer from the extent is emptied, a Read that waited for that
buffer makes its own accesses, and a Read of the extent gets the damage mark. -/
theorem noticeDamagedAt_unit (h : Fin 32) (p : PortId) (s : State) :
    (noticeDamagedAt h p s).transfer.get p =
      { cursor := (s.transfer.get p).cursor
        buffer := if (s.transfer.get p).buffer.handle? = some h then .empty else (s.transfer.get p).buffer
        job := (s.transfer.get p).job.map fun j =>
          let k := if (s.transfer.get p).buffer.handle? = some h then j.standAlone (s.firstRowOf j.handle) else j
          if k.isRead && decide (k.handle = h) then { k with damage := true } else k } := by
  by_cases hb : (s.transfer.get p).buffer.handle? = some h
  · simp only [noticeDamagedAt, hb, if_true, emptyBuffer]
    split <;> cases (s.transfer.get p).job <;> simp [State.setTransfer, State.giveUp]
  · simp only [noticeDamagedAt, hb, if_false]
    cases (s.transfer.get p).job <;> simp [State.setTransfer]

/-- The notice to one transfer unit leaves the others as they are. -/
theorem noticeDamagedAt_other {h : Fin 32} {p q : PortId} (s : State) (hq : q ≠ p) :
    (noticeDamagedAt h p s).transfer.get q = s.transfer.get q := by
  simp only [noticeDamagedAt, emptyBuffer]
  split <;> (try split) <;> simp [State.setTransfer, State.giveUp, PerPort.get_set_other _ _ hq]

/-- A turn of the ports at a bank leaves the other banks as they are. -/
theorem grantPorts_other (s : State) (l : List PortId) {b c : BankId} (h : c ≠ b) :
    (grantPorts s b l).banks.get c = s.banks.get c := by
  induction l with
  | nil => rfl
  | cons p l ih =>
    simp only [grantPorts]
    split
    · exact ih
    · simp [grantTransfer, State.takeTurn, State.begin, State.setBank, State.setTransfer, PerBank.get_set_other _ _ h]
    · simp [grantClear, State.takeTurn, State.begin, State.setBank, PerBank.get_set_other _ _ h]
    · split <;> simp [grantClear, grantTransfer, State.takeTurn, State.begin, State.setBank, State.setTransfer,
        PerBank.get_set_other _ _ h]

/-- A grant decision leaves the other banks as they are. -/
theorem decideGrant_other (s : State) {b c : BankId} (h : c ≠ b) :
    (decideGrant s b).banks.get c = s.banks.get c := by
  unfold decideGrant
  split
  · rfl
  · split
    · simp [grantRefresh, State.begin, State.setBank, PerBank.get_set_other _ _ h]
    · split <;> simp [grantRefresh, grantScan, State.begin, State.setBank, PerBank.get_set_other _ _ h]
    · simp [grantScan, State.begin, State.setBank, PerBank.get_set_other _ _ h]
    · exact grantPorts_other s _ h

/-- The decisions of the idle banks leave a bank with an access in flight as it is. -/
theorem arbitrate_bank {s : State} {b : BankId} {a : Access} (h : (s.banks.get b).inFlight = some a) :
    (arbitrate s).banks.get b = s.banks.get b := by
  have keeps : ∀ (l : List BankId) (s : State), (s.banks.get b).inFlight = some a →
      (l.foldl decideGrant s).banks.get b = s.banks.get b := by
    intro l
    induction l with
    | nil => exact fun s _ => rfl
    | cons c l ih =>
      intro s h
      have one : (decideGrant s c).banks.get b = s.banks.get b := by
        by_cases e : b = c
        · subst e; simp only [decideGrant, h]
        · exact decideGrant_other s e
      rw [List.foldl_cons, ih _ (by rw [one]; exact h), one]
  exact keeps allBanks s h

/-- The decisions of the idle banks leave an access in flight as it is. -/
theorem arbitrate_inFlight {s : State} {b : BankId} {a : Access} (h : (s.banks.get b).inFlight = some a) :
    ((arbitrate s).banks.get b).inFlight = some a := by rw [arbitrate_bank h, h]

/-- The message goes to this port. -/
def Msg.goesTo (q : PortId) : Msg → Bool
  | .respond p _ _ => decide (p = q)
  | .event p _ => decide (p = q)
  | .sessionEnd _ => false

/-- A port controller after one message to its port; `takes` says whether the port takes events. -/
def PortController.afterMsg (takes : Bool) (c : PortController) : Msg → PortController
  | .respond _ result payload => c.takeResponse result payload
  | .event _ e => if takes then c.takeEvent e else c
  | .sessionEnd _ => c

/-- A run of deliveries that ends no session leaves at a port what the messages to it, in their order, make of its
controller. -/
theorem deliverAll_port (q : PortId) (l : List Msg) (s : State) (h : ∀ p, Msg.sessionEnd p ∉ l) :
    (l.foldl State.deliver s).ports.get q =
      (l.filter (Msg.goesTo q)).foldl (PortController.afterMsg (s.session.records.get q).takesEvents)
        (s.ports.get q) := by
  induction l generalizing s with
  | nil => rfl
  | cons m l ih =>
    have hs : (s.deliver m).session = s.session := by
      simpa using deliverAll_session [m] s fun p hp => h p (by simp_all)
    rw [List.foldl_cons, ih _ fun p hp => h p (List.mem_cons_of_mem _ hp), hs]
    cases m with
    | respond p a b =>
      by_cases e : p = q
      · subst e; simp [Msg.goesTo, PortController.afterMsg, State.deliver, State.setPort]
      · have e' : ¬q = p := fun x => e x.symm
        simp [Msg.goesTo, e, State.deliver, State.setPort, PerPort.get_set_other _ _ e']
    | event p a =>
      by_cases e : p = q
      · subst e
        simp only [List.filter_cons, Msg.goesTo, decide_true, if_true, List.foldl_cons, PortController.afterMsg,
          State.deliver]
        split <;> simp [State.setPort]
      · have e' : ¬q = p := fun x => e x.symm
        simp only [List.filter_cons, Msg.goesTo, e, decide_false, Bool.false_eq_true, if_false, State.deliver]
        split <;> simp [State.setPort, PerPort.get_set_other _ _ e']
    | sessionEnd p => exact absurd List.mem_cons_self (h p)

end Sys2Proof.Machine
end

