-- ==== Sys2Proof/Laws/Departure.lean ====
section
/-! SUPPORT. What losing an extent does to the transfer units, from a free, a revocation and the departure of its owner,
each said once. -/

namespace Sys2Proof.Machine

/-- The first row of the lost extent itself makes no difference: a Read of it is ended. -/
theorem losing_row {u : TransferUnit} {h : Fin 32} {r r' : Fin 32 → Nat} (e : ∀ k, k ≠ h → r k = r' k) :
    u.losing h r = u.losing h r' := by
  have hj : ∀ j : Job, (j.isRead && decide (j.handle = h)) = false →
      j.standAlone (r j.handle) = j.standAlone (r' j.handle) := by
    intro j hj
    by_cases hh : j.handle = h
    · have : j.isRead = false := by simpa [hh] using hj
      unfold Job.standAlone; split <;> simp_all [Job.isRead]
    · rw [e _ hh]
  unfold TransferUnit.losing
  congr 1
  cases u.job with
  | none => rfl
  | some j => simp only [Option.bind]; split
              · rfl
              · rename_i n; rw [hj j (by simpa using n)]

/-- Losing the same extent again changes nothing. -/
theorem losing_twice (u : TransferUnit) (h : Fin 32) (r r' : Fin 32 → Nat) :
    (u.losing h r).losing h r' = u.losing h r := by
  obtain ⟨c, b, j⟩ := u
  simp only [TransferUnit.losing]
  have hb : (if b.handle? = some h then ReadAhead.empty else b).handle? ≠ some h := by
    split <;> simp_all [ReadAhead.handle?]
  simp only [hb, if_false]
  congr 1
  · cases c with
    | none => rfl
    | some c => by_cases x : c.handle = h <;> simp [Option.filter, x]
  · cases j with
    | none => rfl
    | some j =>
      simp only [Option.bind]
      by_cases x : (j.isRead && decide (j.handle = h)) = true
      · simp [x]
      · simp only [x]
        have : (if b.handle? = some h then j.standAlone (r j.handle) else j).isRead = j.isRead ∧
            (if b.handle? = some h then j.standAlone (r j.handle) else j).handle = j.handle := by
          split <;> simp [standAlone_reads]
        simp [this.1, this.2]; simpa using x

/-- The loss told to one transfer unit changes that unit alone. -/
theorem loseExtent_losing (h : Fin 32) (result : Result) (p q : PortId) (s : State) :
    (loseExtent h result p s).st.transfer.get q =
      if q = p then (s.transfer.get q).losing h s.firstRowOf else s.transfer.get q := by
  by_cases e : q = p
  · subst e; simp only [if_true]; exact loseExtent_unit h result q s
  · simp only [e, if_false]; exact loseExtent_other s e

/-- The loss leaves the extent manager as it is. -/
theorem loseExtent_extents (h : Fin 32) (r : Result) (p : PortId) (s : State) :
    (loseExtent h r p s).st.extents = s.extents := by
  obtain ⟨k, t, e⟩ := loseExtent_frame h r p s; rw [e]

/-- An extent freed is lost to every transfer unit. -/
theorem releaseExtent_unit (h : Fin 32) (q : PortId) (s : State) :
    (releaseExtent h s).st.transfer.get q =
      if (s.extent h).isSome then (s.transfer.get q).losing h s.firstRowOf else s.transfer.get q := by
  have run : ∀ (l : List PortId) (a : Act), l.Nodup →
      (a.forEach l fun p => loseExtent h .noObject p).st.transfer.get q =
        if q ∈ l then (a.st.transfer.get q).losing h a.st.firstRowOf else a.st.transfer.get q := by
    intro l
    induction l with
    | nil => intro a _; simp [Act.forEach]
    | cons p l ih =>
      intro a hl
      obtain ⟨hp, hl⟩ := List.nodup_cons.1 hl
      have he : (a.andThen (loseExtent h .noObject p)).st.extents = a.st.extents :=
        loseExtent_extents h .noObject p a.st
      have hr : (a.andThen (loseExtent h .noObject p)).st.firstRowOf = a.st.firstRowOf := by
        funext k; simp only [State.firstRowOf, State.extent, he]
      show ((a.andThen (loseExtent h .noObject p)).forEach l fun p => loseExtent h .noObject p).st.transfer.get q = _
      rw [ih _ hl, hr]
      have h1 : (a.andThen (loseExtent h .noObject p)).st.transfer.get q = _ := loseExtent_losing h .noObject p q a.st
      rw [h1]
      by_cases e : q = p
      · subst e; simp [hp]
      · simp [e]
  have ups : ∀ (l : List PortId) (s : State), (l.foldl (fun s p => giveUpClear s h p) s).transfer = s.transfer ∧
      (l.foldl (fun s p => giveUpClear s h p) s).extents = s.extents := by
    intro l
    induction l with
    | nil => exact fun s => ⟨rfl, rfl⟩
    | cons p l ih =>
      intro s; rw [List.foldl_cons, (ih _).1, (ih _).2]
      unfold giveUpClear; split <;> exact ⟨rfl, rfl⟩
  unfold releaseExtent
  cases he : s.extent h with
  | none => simp [Act.quiet]
  | some e =>
    obtain ⟨u1, u2⟩ := ups allPorts s
    simp only [Option.isSome, if_true]
    refine (run allPorts _ (by decide)).trans ?_
    have hm : q ∈ allPorts := by cases q <;> decide
    simp only [hm, if_true, Act.quiet, Act.sendAll]
    have ht : (State.setExtent (leaveClearLists (allPorts.foldl (fun s p => giveUpClear s h p) s) h) h none).transfer =
        s.transfer := u1
    rw [ht]
    refine losing_row fun k hk => ?_
    have : ((leaveClearLists (allPorts.foldl (fun s p => giveUpClear s h p) s) h).setExtent h none).extent k =
        s.extent k := by
      have hv : (h : Nat) ≠ k := fun x => hk (Fin.ext x.symm)
      simp [State.extent, State.setExtent, leaveClearLists, u2, hv]
    simp only [State.firstRowOf, this]

/-- The record after its grant is replaced. -/
theorem setGrant_extent {h : Fin 32} {p : PortId} {v : GrantState} {s : State} {e : Extent}
    (he : s.extent h = some e) :
    (setGrant h p v s).extent h = some { e with grants := e.grants.set p v } := by
  simp only [setGrant, he]; simp [State.setExtent, State.extent]

/-- A grant replaced moves no extent. -/
theorem setGrant_firstRow (h : Fin 32) (p : PortId) (v : GrantState) (s : State) :
    (setGrant h p v s).firstRowOf = s.firstRowOf := by
  funext k
  unfold setGrant
  cases he : s.extent h with
  | none => rfl
  | some e =>
    by_cases hk : k = h
    · subst hk; simp only [State.extent] at he; simp [State.firstRowOf, State.extent, State.setExtent, he]
    · have hv : (h : Nat) ≠ k := fun x => hk (Fin.ext x.symm)
      simp [State.firstRowOf, State.extent, State.setExtent, hv]

/-- What a revocation makes of the transfer units and the extent: the target loses the extent when its
GRANTED grant ends at once, and of the record only the target's grant changes. -/
theorem revokeGrant_what {h : Fin 32} {g p : PortId} {s : State} {e : Extent} (he : s.extent h = some e) :
    (∀ q, (revokeGrant h g p s).st.transfer.get q =
      if q = p ∧ e.grants.get p = .granted ∧ e.counts.get p = 0 then (s.transfer.get q).losing h s.firstRowOf
      else s.transfer.get q) ∧
    (revokeGrant h g p s).st.firstRowOf = s.firstRowOf ∧
    ∃ v, (revokeGrant h g p s).st.extent h = some { e with grants := e.grants.set p v } := by
  have same : ∀ x : PerPort GrantState, x.set p (x.get p) = x := fun x => by cases p <;> rfl
  simp only [revokeGrant, he]
  cases hg : e.grants.get p with
  | none => exact ⟨fun q => by simp [Act.quiet], rfl, .none, he.trans (by rw [← hg, same])⟩
  | withdrawing => exact ⟨fun q => by simp [Act.quiet], rfl, .withdrawing, he.trans (by rw [← hg, same])⟩
  | granted =>
    by_cases hc : e.counts.get p = 0
    · simp only [hc, if_true]
      have fr := setGrant_firstRow h p .none s
      have tr : (setGrant h p .none s).transfer = s.transfer := by simp [setGrant, he, State.setExtent]
      have ex := loseExtent_extents h .notGranted p (setGrant h p .none s)
      refine ⟨fun q => ?_, ?_, .none, ?_⟩
      · show (loseExtent h .notGranted p (setGrant h p .none s)).st.transfer.get q = _
        rw [loseExtent_losing, fr, tr]; simp
      · show (loseExtent h .notGranted p (setGrant h p .none s)).st.firstRowOf = _
        rw [← fr]; funext k; simp only [State.firstRowOf, State.extent, ex]
      · show (loseExtent h .notGranted p (setGrant h p .none s)).st.extent h = _
        rw [← setGrant_extent he]; simp only [State.extent, ex]
    · simp only [hc, if_false]
      refine ⟨fun q => ?_, setGrant_firstRow h p .withdrawing s, .withdrawing, setGrant_extent he⟩
      show (setGrant h p .withdrawing s).transfer.get q = _
      simp [setGrant, he, State.setExtent]

/-- What a run of revocations, each of another port, makes of the transfer units and the extent. -/
theorem revokeAll_what {h : Fin 32} {g : PortId} (l : List PortId) (a : Act) (e : Extent) (hl : l.Nodup)
    (he : a.st.extent h = some e) :
    let t := (a.forEach l fun p => revokeGrant h g p).st
    (∀ q, t.transfer.get q =
      if q ∈ l ∧ e.grants.get q = .granted ∧ e.counts.get q = 0 then (a.st.transfer.get q).losing h a.st.firstRowOf
      else a.st.transfer.get q) ∧
    t.firstRowOf = a.st.firstRowOf ∧ ∃ v, t.extent h = some { e with grants := v } := by
  induction l generalizing a e with
  | nil => exact ⟨fun q => by simp [Act.forEach], rfl, e.grants, he⟩
  | cons p l ih =>
    obtain ⟨hp, hl⟩ := List.nodup_cons.1 hl
    obtain ⟨f1, f2, v, f3⟩ := revokeGrant_what (g := g) (p := p) he
    obtain ⟨i1, i2, w, i3⟩ := ih (a.andThen (revokeGrant h g p)) { e with grants := e.grants.set p v } hl f3
    have f2' : (a.andThen (revokeGrant h g p)).st.firstRowOf = a.st.firstRowOf := f2
    refine ⟨fun q => ?_, i2.trans f2', w, i3⟩
    refine (i1 q).trans ?_
    have f1' : (a.andThen (revokeGrant h g p)).st.transfer.get q = _ := f1 q
    rw [f1', f2']
    by_cases x : q = p
    · subst x; simp [hp]
    · simp [x, PerPort.get_set_other _ _ x]

/-- What the departure of a port from one extent makes of each transfer unit. -/
theorem orphanExtent_unit (p q : PortId) (h : Fin 32) (s : State) :
    (orphanExtent p h s).st.transfer.get q =
      if (takenAtDeparture s p q h).isSome then (s.transfer.get q).losing h s.firstRowOf else s.transfer.get q := by
  unfold orphanExtent takenAtDeparture
  cases he : s.extent h with
  | none => simp [Act.quiet]
  | some e =>
    by_cases ho : e.owner = some p
    · simp only [ho, if_true]
      set s0 := s.setExtent h (some { e with owner := none }) with hs0
      have t0 : s0.transfer = s.transfer := rfl
      have e0 : s0.extent h = some { e with owner := none } := by simp [hs0, State.setExtent, State.extent]
      have r0 : s0.firstRowOf = s.firstRowOf := by
        funext k
        by_cases hk : k = h
        · subst hk; simp [State.firstRowOf, e0, he]
        · have hv : (h : Nat) ≠ k := fun x => hk (Fin.ext x.symm)
          simp [State.firstRowOf, State.extent, hs0, State.setExtent, hv]
      obtain ⟨f1, f2, v, f3⟩ := revokeAll_what (g := p) (otherPorts p) (Act.quiet s0) _ (by cases p <;> decide) e0
      set a := (Act.quiet s0).forEach (otherPorts p) fun q => revokeGrant h p q
      set own : GrantState := if e.counts.get p = 0 then .none else .withdrawing
      have g1 := setGrant_extent (p := p) (v := own) f3
      have g2 := setGrant_firstRow h p own a.st
      have g3 : (setGrant h p own a.st).transfer = a.st.transfer := by simp [setGrant, f3, State.setExtent]
      have fin : ((a.change (setGrant h p own)).andThen (releaseIfUnreferenced h)).st.transfer.get q =
          (releaseIfUnreferenced h (setGrant h p own a.st)).st.transfer.get q := rfl
      rw [fin]
      have hm : q ∈ otherPorts p ↔ q ≠ p := by cases p <;> cases q <;> decide
      have u1 : a.st.transfer.get q = _ := f1 q
      simp only [hm, Act.quiet, t0, r0] at u1
      have u2 : a.st.firstRowOf = s.firstRowOf := f2.trans r0
      have un : ({ e with owner := none, grants := v.set p own } : Extent).unreferenced = true ↔
          ∀ v ∈ allPorts, e.counts.get v = 0 := by simp [Extent.unreferenced]
      unfold releaseIfUnreferenced
      simp only [g1, decide_true, Bool.true_and]
      by_cases hu : ∀ v ∈ allPorts, e.counts.get v = 0
      · rw [if_pos (un.2 hu), releaseExtent_unit, g1, g2, g3, u1, u2]
        simp only [Option.isSome, if_true, ne_eq, not_true, if_false]
        split
        · rw [losing_twice]; rfl
        · rfl
      · rw [if_neg fun x => hu (un.1 x)]
        show (setGrant h p own a.st).transfer.get q = _
        rw [g3, u1]
        simp only [hu, if_false, ne_eq, not_true]
        split <;> rfl
    · simp [ho, Act.quiet]

end Sys2Proof.Machine
end

