-- ==== Sys2Proof/Laws/Store.lean ====
section
/-! SUPPORT. The store's cells: the canonical form is kept, and a byte written is the byte read. -/

namespace Sys2Proof.Machine

/-- The order of two cells. -/
abbrev cellLt (c d : Host.Cell) : Prop := c.1 < d.1

theorem Memory.rising_iff (cells : List Host.Cell) : Memory.rising cells = true ↔ cells.Pairwise cellLt := by
  induction cells with
  | nil => simp [Memory.rising]
  | cons c rest ih =>
    cases rest with
    | nil => simp [Memory.rising]
    | cons d rest =>
      simp only [Memory.rising, Bool.and_eq_true, decide_eq_true_eq, ih, List.pairwise_cons]
      constructor
      · rintro ⟨hcd, hd, hr⟩
        refine ⟨fun e he => ?_, hd, hr⟩
        rcases List.mem_cons.1 he with rfl | he
        · exact hcd
        · exact lt_trans hcd (hd e he)
      · rintro ⟨hc, hd, hr⟩
        exact ⟨hc d (by simp), hd, hr⟩

theorem Memory.wf_iff (cells : List Host.Cell) :
    Memory.wf cells = true ↔ cells.Pairwise cellLt ∧ ∀ c ∈ cells, c.1 < storeBytes := by
  simp [Memory.wf, Memory.rising_iff]

/-- The empty store has the canonical form. -/
theorem Memory.wf_nil : Memory.wf [] = true := rfl

/-- A cell written lies in the range written. -/
theorem mem_written {a : Nat} {bytes : List Byte} {c : Host.Cell}
    (h : c ∈ bytes.zipIdx.map (fun b => ((a + b.2, b.1) : Host.Cell))) : a ≤ c.1 ∧ c.1 < a + bytes.length := by
  obtain ⟨⟨b, i⟩, hb, rfl⟩ := List.mem_map.1 h
  have := List.mem_zipIdx hb
  simp only at this ⊢
  omega

theorem written_pairwise (a : Nat) (bytes : List Byte) :
    (bytes.zipIdx.map (fun b => ((a + b.2, b.1) : Host.Cell))).Pairwise cellLt := by
  rw [List.pairwise_map, List.pairwise_iff_getElem]
  intro i j hi hj hij
  simp [cellLt, hij]

/-- A write keeps the addresses rising. -/
theorem Memory.write_pairwise {cells : List Host.Cell} (hp : cells.Pairwise cellLt) (a : Nat) (bytes : List Byte) :
    (Memory.write cells a bytes).Pairwise cellLt := by
  unfold Memory.write
  rw [List.pairwise_append, List.pairwise_append]
  refine ⟨⟨hp.filter _, written_pairwise a bytes, ?_⟩, hp.filter _, ?_⟩
  · intro c hc d hd
    have h1 := (List.mem_filter.1 hc).2
    have h2 := mem_written hd
    simp only [decide_eq_true_eq] at h1
    simp only [cellLt]; omega
  · intro c hc d hd
    have h2 := (List.mem_filter.1 hd).2
    simp only [decide_eq_true_eq] at h2
    rcases List.mem_append.1 hc with hc | hc
    · have h1 := (List.mem_filter.1 hc).2
      simp only [decide_eq_true_eq] at h1
      simp only [cellLt]; omega
    · have h1 := mem_written hc
      simp only [cellLt]; omega

/-- A write keeps the addresses rising and inside the store, when the range written lies in it. -/
theorem Memory.write_wf {cells : List Host.Cell} {a : Nat} {bytes : List Byte} (h : Memory.wf cells = true)
    (hr : bytes = [] ∨ a + bytes.length ≤ storeBytes) : Memory.wf (Memory.write cells a bytes) = true := by
  rw [Memory.wf_iff] at h ⊢
  refine ⟨Memory.write_pairwise h.1 a bytes, fun c hc => ?_⟩
  unfold Memory.write at hc
  rcases List.mem_append.1 hc with hc | hc
  · rcases List.mem_append.1 hc with hc | hc
    · exact h.2 c (List.mem_filter.1 hc).1
    · have h1 := mem_written hc
      rcases hr with rfl | hr
      · simp at hc
      · omega
  · exact h.2 c (List.mem_filter.1 hc).1

/-- A write to a row keeps the canonical form, whatever the row, the byte number and the bytes. -/
theorem Store.writeAt_wf {m : Store} (g lo : Nat) (bytes : List Byte) (h : Memory.wf m.cells = true) :
    Memory.wf (m.writeAt g lo bytes).cells = true := by
  unfold Store.writeAt
  split
  · rename_i hg
    refine Memory.write_wf h ?_
    by_cases hl : lo ≤ rowBytes
    · right
      simp only [byteAddress, storeBytes, rowBytes, storeRows, List.length_take] at *
      omega
    · left
      have : rowBytes - lo = 0 := by omega
      simp [this]
  · exact h

/-- The addresses of the cells tell them apart. -/
theorem read_of_mem {cells : List Host.Cell} (hp : cells.Pairwise cellLt) {c : Host.Cell} (hc : c ∈ cells) :
    Memory.read cells c.1 = some c.2 := by
  induction cells with
  | nil => simp at hc
  | cons d rest ih =>
    rw [List.pairwise_cons] at hp
    rcases List.mem_cons.1 hc with rfl | hc'
    · simp [Memory.read]
    · have hne : d.1 ≠ c.1 := ne_of_lt (hp.1 c hc')
      have := ih hp.2 hc'
      simp only [Memory.read, List.find?_cons] at this ⊢
      have hb : (d.1 == c.1) = false := by simpa using hne
      simpa [hb] using this

/-- An address that no cell has reads as none. -/
theorem read_none {cells : List Host.Cell} {a : Nat} (h : ∀ c ∈ cells, c.1 ≠ a) : Memory.read cells a = none := by
  simp only [Memory.read, Option.map_eq_none_iff, List.find?_eq_none, beq_iff_eq]
  exact h

/-- Read after write: inside the range written the bytes written, outside it what stood before. -/
theorem Memory.read_write {cells : List Host.Cell} (h : Memory.wf cells = true) (a : Nat) (bytes : List Byte)
    (x : Nat) :
    Memory.read (Memory.write cells a bytes) x =
      if a ≤ x ∧ x < a + bytes.length then bytes[x - a]? else Memory.read cells x := by
  have hp := ((Memory.wf_iff _).1 h).1
  have key : ∀ c ∈ Memory.write cells a bytes,
      (a ≤ c.1 ∧ c.1 < a + bytes.length ∧ bytes[c.1 - a]? = some c.2) ∨
      (¬(a ≤ c.1 ∧ c.1 < a + bytes.length) ∧ c ∈ cells) := by
    intro c hc
    unfold Memory.write at hc
    rcases List.mem_append.1 hc with hc | hc
    · rcases List.mem_append.1 hc with hc | hc
      · have h1 := List.mem_filter.1 hc
        simp only [decide_eq_true_eq] at h1
        exact .inr ⟨by omega, h1.1⟩
      · have hr := mem_written hc
        obtain ⟨⟨b, i⟩, hb, rfl⟩ := List.mem_map.1 hc
        refine .inl ⟨hr.1, hr.2, ?_⟩
        have := List.mem_zipIdx_iff_getElem?.1 hb
        simpa using this
    · have h1 := List.mem_filter.1 hc
      simp only [decide_eq_true_eq] at h1
      exact .inr ⟨by omega, h1.1⟩
  have hpw := Memory.write_pairwise hp a bytes
  by_cases hx : a ≤ x ∧ x < a + bytes.length
  · rw [if_pos hx]
    have hlt : x - a < bytes.length := by omega
    have hmem : ((x, bytes[x - a]) : Host.Cell) ∈ Memory.write cells a bytes := by
      unfold Memory.write
      refine List.mem_append_left _ (List.mem_append_right _ (List.mem_map.2 ⟨(bytes[x - a], x - a), ?_, ?_⟩))
      · exact List.mem_zipIdx_iff_getElem?.2 (List.getElem?_eq_getElem hlt)
      · simp; omega
    rw [read_of_mem hpw hmem, List.getElem?_eq_getElem hlt]
  · rw [if_neg hx]
    by_cases hm : ∃ c ∈ cells, c.1 = x
    · obtain ⟨c, hc, rfl⟩ := hm
      have hmem : c ∈ Memory.write cells a bytes := by
        unfold Memory.write
        rcases Nat.lt_or_ge c.1 a with hl | hl
        · exact List.mem_append_left _ (List.mem_append_left _ (List.mem_filter.2 ⟨hc, by simpa using hl⟩))
        · exact List.mem_append_right _ (List.mem_filter.2 ⟨hc, by simp only [decide_eq_true_eq]; omega⟩)
      rw [read_of_mem hpw hmem, read_of_mem hp hc]
    · have h1 : ∀ c ∈ cells, c.1 ≠ x := fun c hc e => hm ⟨c, hc, e⟩
      rw [read_none h1, read_none]
      intro c hc e
      rcases key c hc with ⟨h2, h3, _⟩ | ⟨_, h2⟩
      · exact hx ⟨e ▸ h2, e ▸ h3⟩
      · exact h1 c h2 e

end Sys2Proof.Machine
end

