-- ==== Sys2Proof/WellFormed.lean ====
section
/-! DEFINITION. Which commands are events of the part as their rows describe them. -/

namespace Sys2Proof

/-- A reset is a low pulse of 1 µs or longer (R211), and the bits clocked after the last complete byte of a
transaction are fewer than eight (R191). The meanings are total: a shorter pulse has no effect, and stray bits
are ignored however many are given. -/
def Instr.wellFormed : Instr → Bool
  | .resetAssert ns => decide (1000 ≤ ns)
  | .transactionEnd _ _ stray => decide (stray < 8)
  | .resetRelease | .transactionStart _ | .unknownCode _ | .status _ | .join _ | .leave _ | .getPlan _
  | .propose _ | .vote _ | .claimLayer _ | .getLayer _ | .setView _ | .setLayer _ | .move _ | .showLayer _
  | .hideLayer _ | .setDepth _ | .setSource _ | .setColours _ | .setClip _ | .setPaletteBase _
  | .publishPalette _ | .retireLayer _ | .closeBatch _ | .abandonBatch _ | .moveNow _ | .defineWindow _
  | .changeWindow _ | .arm _ | .disarm _ | .freeWindow _ | .getWindow _ | .allocExtent _ | .freeExtent _
  | .grant _ | .revoke _ | .mend _ | .getExtent _ | .seek _ | .write _ | .read _ | .update _
  | .claimPalette _ | .releasePalette _ | .paletteWrite _ | .paletteRead _ | .leaseExpiry _ | .voteTimeout
  | .lineZeroFetch | .frameStart | .lineStart | .blankStart | .tick _ | .accessCompletion _ => true

end Sys2Proof
end

