-- ==== Sys2Proof/Tests/Slice0.lean ====
section
/-! SUPPORT. Tests: well-formedness, the spec's worked examples, and states that meet the hypotheses of the statements. -/

namespace Sys2Proof.Tests

open Sys2Proof.Machine

set_option maxRecDepth 20000
set_option Elab.async false

/-! ### Small states -/

/-- The state a command leads to. -/
def after (c : Instr) (s : State) : State :=
  match exec c s with
  | .next t => t
  | .fault f => nomatch f
  | .refused _ => s

/-- A JOINED session without a lease, with the view given. -/
def joined (view : View) : Session := { state := .joined, lease := 0, counter := 0, view, cause := none }

/-- The part after reset with some ports JOINED. -/
def joining (ps : List PortId) : State := ps.foldl (fun s p => s.setSession p (joined .live)) State.reset

/-- A request with tag 11h. -/
def req (code : Byte) (payload : List Byte) : Request := ⟨0x11, code, payload⟩

/-- A request stands alone in a port's queue. -/
def asking (s : State) (p : PortId) (r : Request) : State :=
  s.setPort p { s.ports.get p with requests := [r] }

/-- The last frame a port is to send. -/
def lastFrame (s : State) (p : PortId) : Option Frame := (s.ports.get p).outbound.getLast?

/-- H0 is JOINED and has sent one request. -/
def h0Asks (code : Byte) (payload : List Byte) : State := asking (joining [.h0]) .h0 (req code payload)

/-- A visible layer at the origin. -/
def layer (format : Format) (z : Fin 64) (width height : Nat) : Descriptor :=
  { defaultDescriptor z with format, width, height, visible := true }

/-- A READY extent of a port. -/
def extentOf (p : PortId) (firstRow rows : Nat) : Extent :=
  { newExtent p firstRow rows with state := .ready, progress := rows }

/-- The scan engine at the start of a line. -/
def atLine (s : State) (phase : Phase) (line : Nat) : State :=
  { s with scan := s.scan.toLine phase line }

/-- Window settings of a small rectangle. -/
def box (x y w h : Nat) (mode : WinMode) (threshold : Nat) (report : WinReport) : WinSettings :=
  { x, y, w, h, mode, reference := some 0x3A91C4, threshold, scope := .owner, report }

/-- A window of H0 in a state. -/
def win (state : WinState) (settings : WinSettings) : Window :=
  { newWindow State.reset .h0 settings with state }

/-! ### Well-formedness -/

theorem test_short_reset_pulse_is_ill_formed : Instr.wellFormed (.resetAssert 999) = false := by decide
theorem test_reset_pulse_of_a_microsecond_is_well_formed : Instr.wellFormed (.resetAssert 1000) = true := by decide
theorem test_eight_stray_bits_are_ill_formed : Instr.wellFormed (.transactionEnd .h0 [] 8) = false := by decide
theorem test_seven_stray_bits_are_well_formed : Instr.wellFormed (.transactionEnd .h0 [] 7) = true := by decide

/-- The table gives no row bits: no word spells a command (log 30). -/
theorem test_no_word_spells_a_command : decodeTableWord 8 0x01 = none := by decide

/-! ### Check values: the published check values of these polynomials over the digits 1 to 9 -/

/-- CRC-16 with polynomial 1021h and initial value FFFFh. -/
theorem test_crc16_check_value : crc16 [0x31, 0x32, 0x33, 0x34, 0x35, 0x36, 0x37, 0x38, 0x39] = 0x29B1 := by decide

/-- CRC-8 with polynomial 2Fh and initial value FFh: the published DFh with its final inversion undone. -/
theorem test_crc8_check_value : crc8 [0x31, 0x32, 0x33, 0x34, 0x35, 0x36, 0x37, 0x38, 0x39] = 0x20 := by decide

/-! ### Worked examples of chapter 1 -/

/-- A layer drawn at panel column 0 alone, with the bytes fetched for it. -/
def dot (d : Descriptor) (fallback : Bool) (bytes : List Byte) : DrawnLayer :=
  { desc := d, span := ⟨0, 0, 0, 0⟩, fallback, bytes }

/-- The palette with entry 5 of P20 at 40C040h. -/
def examplePalette : Vector PaletteBlock 64 :=
  State.reset.palette.set 20 { clearedBlock with live := clearedBlock.live.set 5 0x40C040 }

def l2 : DrawnLayer := dot { layer .fill 3 1 1 with fill := 0x204080 } false []
def l7 (fallback : Bool) : DrawnLayer := dot { layer .index4 18 1 1 with paletteBase := some 20 } fallback [0x50]
def l9 : DrawnLayer :=
  dot { layer .marker2 20 1 1 with codeMap := ⟨.transparent, .transparent, .invert, .transparent⟩ } false [0x80]
def l12 (key : Option Half) : DrawnLayer := dot { layer .direct16 35 1 1 with key } false [0xF8, 0x1F]

/-- One pixel through five layers: BF3FBFh (1, worked example). -/
theorem test_pixel_through_layers :
    composeLine examplePalette 0x102030 [l7 false, l2, l12 (some 0xF81F), l9] 1 = [0xBF3FBF] := by decide +kernel

/-- The same without L12's key: F81Fh expands to FF00FFh. -/
theorem test_pixel_without_key :
    composeLine examplePalette 0x102030 [l7 false, l2, l12 none, l9] 1 = [0xFF00FF] := by decide +kernel

/-- The same with L7 in fallback: its fill 000000h, inverted. -/
theorem test_pixel_with_fallback :
    composeLine examplePalette 0x102030 [l7 true, l2, l12 (some 0xF81F), l9] 1 = [0xFFFFFF] := by decide +kernel

/-- H1 holds L4 at z 16 and L5 at z 30; H0 holds L0 to L3. -/
def claims : State :=
  let s := joining [.h0, .h1]
  let s := ([0, 1, 2, 3] : List (Fin 4)).foldl (fun s i =>
    s.setSlot ⟨i.val, by omega⟩ (.held .owned .h0 (defaultDescriptor ⟨i.val, by omega⟩))) s
  (s.setSlot 4 (.held .owned .h1 (defaultDescriptor 16))).setSlot 5 (.held .owned .h1 (defaultDescriptor 30))

/-- Claims inside a band, step 4: L6 at z 17. -/
theorem test_claim_takes_lowest_free_depth :
    lastFrame (after (.claimLayer .h1) (asking claims .h1 (req 0x08 []))) .h1 =
      some (.response 0x11 .ok [6, 17]) := by decide +kernel

/-- Claims inside a band, step 7: at the quota of 4 the answer is QUOTA. -/
theorem test_claim_at_quota :
    lastFrame (after (.claimLayer .h0) (asking claims .h0 (req 0x08 []))) .h0 =
      some (.response 0x11 .quota []) := by decide +kernel

/-- Two views of one slot: H1 holds L5 and has staged a move and a depth, view STAGED; H2's view is LIVE. -/
def views : State :=
  let s := (joining [.h1, .h2]).setSession .h1 (joined .staged)
  let s := s.setSlot 5 (.held .owned .h1 { layer .fill 30 1 1 with x := 300, y := 120 })
  s.setBatch .h1 { state := .opened, edits := [.move 5 200 100, .setDepth 5 25], target := none }

/-- Bytes of the answer: state, owner, answer flags, format, z, then x and y at descriptor bytes 6 to 9. -/
def layerAnswer : Option Frame → Option (List Byte)
  | some (.response _ .ok payload) => some (payload.take 5 ++ (payload.drop 9).take 4)
  | _ => none

theorem test_get_layer_projected :
    layerAnswer (lastFrame (after (.getLayer .h1) (asking views .h1 (req 0x09 [5]))) .h1) =
      some [1, 1, 1, 0, 25, 0, 200, 0, 100] := by decide +kernel

theorem test_get_layer_live :
    layerAnswer (lastFrame (after (.getLayer .h2) (asking views .h2 (req 0x09 [5]))) .h2) =
      some [1, 1, 0, 0, 30, 1, 44, 0, 120] := by decide +kernel

/-! ### Worked examples of chapter 2 -/

/-- L7 of H1: INDEX8, 800 x 300, drawn from E4, whose first row is 1,000. -/
def wide : State :=
  let d := { layer .index8 18 800 300 with source := some ⟨4, 0, 800⟩, paletteBase := some 16 }
  ((joining [.h1]).setExtent 4 (some (extentOf .h1 1000 500))).setSlot 7 (.held .owned .h1 d)

/-- The fetch for line 120 divides into three row accesses, at global rows 1,187 to 1,189. -/
theorem test_line_fetch_divides_at_rows :
    ((fetchPoint 800 120 (Vector.replicate 16 false) wide).scan.fetch.map fun f => (f.part.row, f.part.kind)) =
      [(1187, .read 256 256), (1188, .read 0 512), (1189, .read 0 32)] := by decide +kernel

/-- Line start 120 with the B0 access still waiting: UNDERRUN (L7, 2041) to H1. -/
def starved : State :=
  let s := atLine (fetchPoint 800 120 (Vector.replicate 16 false) wide) .active 119
  let fetch := s.scan.fetch.map fun f =>
    if f.part.row = 1188 then f else { f with part := { f.part with status := .done [] } }
  { s with scan := { s.scan with fetch, frameCounter := 2041 } }

theorem test_underrun_is_reported :
    lastFrame (after .lineStart starved) .h1 = some (.event (.underrun 7 2041) 1) := by decide +kernel

/-- The default frame: the frame start at the end of blank line 19 of frame 1,199 makes the counter 1,200. -/
theorem test_frame_start_counts :
    let s := atLine State.reset .blank 19
    let t := after .frameStart { s with scan := { s.scan with frameCounter := 1199 } }
    (t.scan.frameCounter, t.scan.phase, t.scan.lineNo) = (1200, .active, 0) := by decide +kernel

/-- The last active line is 479: the blank start follows, and the counter stays. -/
theorem test_blank_start_after_line_479 :
    let t := after .blankStart (atLine State.reset .active 479)
    (t.scan.phase, t.scan.lineNo, t.scan.frameCounter) = (.blank, 0, 0) := by decide +kernel

/-- The fetch for line 0 is made at the start of blank line 19. -/
theorem test_line_zero_fetch :
    (after .lineZeroFetch (atLine wide .blank 18)).scan.fetch.map (fun f => f.part.row) = [1000, 1001] := by
  decide +kernel

/-! ### Worked examples of chapter 3 -/

/-- Targets across the wrap, at next frame number 65,531. -/
theorem test_targets_across_the_wrap :
    [some 65520, some 2, some 32762, none].map (targetReached 65531) = [true, false, false, true] := by decide
theorem test_target_two_is_due_at_two : targetReached 2 (some 2) = true := by decide

/-- Two ports at one blank start, with the layers, extents and batches of the worked example. -/
def twoPorts : State :=
  let s := atLine (joining [.h0, .h1, .h2, .h3]) .active 479
  let s := { s with scan := { s.scan with frameCounter := 4120 } }
  let s := s.setSlot 0 (.held .owned .h0
    { layer .index4 2 100 40 with x := 20, y := 300, source := some ⟨2, 0, 50⟩, paletteBase := some 3 })
  let s := s.setSlot 1 (.held .owned .h0
    { layer .direct16 5 64 64 with x := 600, y := 40, source := some ⟨2, 8192, 128⟩ })
  let s := s.setSlot 5 (.held .owned .h1
    { layer .direct16 20 32 32 with x := 700, y := 400, source := some ⟨2, 16384, 64⟩ })
  let s := s.setSlot 6 (.held .owned .h1
    { layer .marker2 21 32 32 with x := 100, y := 100, source := some ⟨9, 0, 8⟩ })
  let s := s.setExtent 2 (some
    { extentOf .h0 0 40 with grants := ⟨.none, .withdrawing, .none, .none⟩, counts := ⟨2, 1, 0, 0⟩ })
  let s := s.setExtent 6 (some (extentOf .h0 40 16))
  let s := s.setExtent 9 (some { extentOf .h1 56 8 with counts := ⟨0, 1, 0, 0⟩ })
  let s := s.setBlock 3
    { clearedBlock with owner := some .h0, shadow := Vector.replicate 16 0x123456, dirty := true }
  let s := s.setBatch .h0
    { state := .closed, target := none,
      edits := [.setDepth 0 5, .setDepth 1 2, .setSource 1 (some ⟨6, 0, 128⟩), .publish 3, .move 0 40 300] }
  let s := s.setBatch .h1
    { state := .closed, target := some 4121,
      edits := [.setSource 6 (some ⟨2, 4096, 8⟩), .showSlot 6, .move 5 710 400] }
  s.setBatch .h2 { state := .closed, target := some 4130, edits := [.hideSlot 9] }

/-- The depths, positions and handles after the blank start. -/
theorem test_two_ports_layers :
    ([0, 1, 5, 6].map fun l => ((after .blankStart twoPorts).slot l).live?.map fun d =>
      (d.z.val, d.x, d.y, d.source.map fun o => o.handle.val)) =
      [some (5, 40, 300, some 2), some (2, 600, 40, some 6), some (20, 700, 400, some 2),
       some (21, 100, 100, some 9)] := by decide +kernel

/-- The counts, the buffers, the events and P3 after the blank start. -/
theorem test_two_ports_outcome :
    let t := after .blankStart twoPorts
    ([2, 6, 9].map fun h => (t.extent h).map fun e => (e.counts.h0, e.counts.h1)) =
        [some (1, 1), some (1, 0), some (0, 1)] ∧
      (t.commit.batches.h0.state, t.commit.batches.h1.state, t.commit.batches.h2.state) =
        (.empty, .empty, .closed) ∧
      lastFrame t .h0 = some (.event (.batchApplied .h0 4121 5) 1) ∧
      lastFrame t .h1 = some (.event (.batchRejected .h1 (.slot 6) 2 .notGranted) 1) ∧
      (t.block 3).live = Vector.replicate 16 0x123456 ∧ (t.block 3).dirty = false := by decide +kernel

/-- Afterwards: H2's CLOSED batch of one edit is abandoned, and H1's EMPTY buffer answers TOO_LATE. -/
theorem test_abandon_closed_batch :
    lastFrame (after (.abandonBatch .h2) (asking twoPorts .h2 (req 0x0D []))) .h2 =
      some (.response 0x11 .ok [1]) := by decide +kernel
theorem test_abandon_empty_batch :
    lastFrame (after (.abandonBatch .h3) (asking twoPorts .h3 (req 0x0D []))) .h3 =
      some (.response 0x11 .tooLate []) := by decide +kernel

/-! ### Worked examples of chapter 4 -/

/-- W5 of the one-shot example: over x 0, y 0, w 64, h 16, threshold 1, report FAULTS. -/
def oneShot (state : WinState) : Window := { win state (box 0 0 64 16 .oneShot 1 .faults) with checked := 12 }

/-- Steps 3 and 4: columns 500 to 799 of line 10 do not meet W5, columns 40 to 90 of line 12 do. -/
theorem test_underrun_taint :
    (taintUnderrun 10 ⟨10, 0, 500, 799⟩ (oneShot .running)).taint = false ∧
      (taintUnderrun 12 ⟨12, 0, 40, 90⟩ (oneShot .running)).taint = true := by decide

/-- Step 5: tainted at the blank start, W5 goes to IDLE with INDETERMINATE and sends nothing. -/
theorem test_tainted_window_finishes :
    let s := (atLine (joining [.h0]) .active 479).setWindow 5 (some { oneShot .running with taint := true })
    let t := after .blankStart s
    ((t.window 5).map fun w => (w.state, w.lastResult, w.checked)) = some (.idle, .indeterminate, 13) ∧
      lastFrame t .h0 = none := by decide +kernel

/-- Step 8: Disarm of the RUNNING W5. -/
theorem test_disarm_running :
    let s := (asking (joining [.h0]) .h0 (req 0x13 [5])).setWindow 5 (some (oneShot .running))
    ((after (.disarm .h0) s).window 5).map (fun w => (w.state, w.checked)) = some (.idle, 12) := by decide +kernel

/-- Step 11: signature 3A91C5h fails, W5 halts, and CHECK_FAULT alone goes out. -/
theorem test_failing_window_halts :
    let s := (atLine (joining [.h0]) .active 479).setWindow 5 (some { oneShot .running with register := 0x3A91C5 })
    let t := after .blankStart s
    ((t.window 5).map fun w => (w.state, w.lastResult, w.consecutive, w.total, w.checked)) =
        some (.halted, .fail, 1, 1, 13) ∧
      t.ports.h0.outbound = [.event (.checkFault 5 .h0 1 0x3A91C5) 1] := by decide +kernel

/-- The warning window: with W0 to W2 held by other ports H2 is given W3. -/
theorem test_define_window_takes_lowest :
    let w := some (oneShot .idle)
    let s := (((joining [.h0, .h2]).setWindow 0 w).setWindow 1 w).setWindow 2 w
    lastFrame (after (.defineWindow .h2) (asking s .h2 (req 0x10 (encodeSettings (box 40 400 96 32 .continuous 2 .results)))))
      .h2 = some (.response 0x11 .ok [3]) := by decide +kernel

/-- Frame 503: the pointer moved to (80, 404) meets W3, which is RUNNING, in the ACTIVE phase. -/
theorem test_move_now_taints :
    let s := (atLine (joining [.h0]) .active 10).setWindow 3 (some (win .running (box 40 400 96 32 .continuous 2 .results)))
    let s := s.setSlot 6 (.held .owned .h0 { layer .marker2 20 16 16 with x := 300, y := 200, movable := true })
    let t := after (.moveNow .h0) (asking s .h0 (req 0x0E [6, 0, 80, 1, 148]))
    (t.window 3).map Window.taint = some true ∧ ((t.slot 6).live?.map fun d => (d.x, d.y)) = some (80, 404) := by
  decide +kernel

/-! ### Worked examples of chapter 5 -/

/-- The store of the first-fit example. -/
def placed : State :=
  (((joining [.h0, .h1, .h2]).setExtent 0 (some (extentOf .h0 0 1024))).setExtent 1
    (some (extentOf .h1 1024 512))).setExtent 3 (some { extentOf .h3 1792 256 with owner := none })

/-- Step 1: 300 rows go to E2 at row 2,048. -/
theorem test_first_fit :
    lastFrame (after (.allocExtent .h2) (asking placed .h2 (req 0x18 (encode16 300)))) .h2 =
      some (.response 0x11 .ok (2 :: encode16 2048)) := by decide +kernel

/-- Step 2: 200 rows then go to E4 at row 1,536; step 3: 600 rows are past the quota. -/
theorem test_first_fit_lower_run :
    lastFrame (after (.allocExtent .h2) (asking (placed.setExtent 2 (some (extentOf .h2 2048 300))) .h2
      (req 0x18 (encode16 200)))) .h2 = some (.response 0x11 .ok (4 :: encode16 1536)) := by decide +kernel
theorem test_rows_past_quota :
    lastFrame (after (.allocExtent .h2) (asking (placed.setExtent 2 (some (extentOf .h2 2048 500))) .h2
      (req 0x18 (encode16 600)))) .h2 = some (.response 0x11 .quota []) := by decide +kernel

/-- Rows lost in the clearing E2 at progress 140: row 2,100 moves the progress to 52, row 2,300 changes nothing. -/
theorem test_lost_row_rewinds_clearing :
    let s := placed.setExtent 2 (some { newExtent .h2 2048 300 with progress := 140 })
    ((lostRow 2100 s).st.extent 2).map Extent.progress = some 52 ∧
      ((lostRow 2300 s).st.extent 2).map Extent.progress = some 140 := by decide +kernel

/-- E7 of H0, with a grant and counts for H1. -/
def shared (grant : GrantState) (own drawn : Nat) : State :=
  ((joining [.h0, .h1, .h2]).setExtent 7
    (some { extentOf .h0 100 64 with grants := ⟨.none, grant, .none, .none⟩, counts := ⟨own, drawn, 0, 0⟩ })).setExtent
    11 (some (extentOf .h1 200 64))

/-- Step 4: a Revoke while H1 draws from E7 is answered OK and makes the grant WITHDRAWING. -/
theorem test_revoke_withdraws :
    let t := after (.revoke .h0) (asking (shared .granted 0 1) .h0 (req 0x1B [7, 1]))
    ((t.extent 7).map fun e => e.grants.h1) = some .withdrawing ∧
      lastFrame t .h1 = some (.event (.grantWithdrawn 7 .h0) 1) := by decide +kernel

/-- Step 5: Free Extent of E7 is answered IN_USE. -/
theorem test_free_in_use :
    lastFrame (after (.freeExtent .h0) (asking (shared .withdrawing 0 1) .h0 (req 0x19 [7]))) .h0 =
      some (.response 0x11 .inUse []) := by decide +kernel

/-- Step 8: H1's batch takes L4 to E11, and GRANT_ENDED goes to both. -/
theorem test_withdrawal_ends :
    let s := atLine (shared .withdrawing 0 1) .active 479
    let s := s.setSlot 4 (.held .owned .h1 { layer .direct16 16 10 10 with source := some ⟨7, 0, 400⟩ })
    let s := s.setBatch .h1 { state := .closed, target := none, edits := [.setSource 4 (some ⟨11, 0, 400⟩)] }
    let t := after .blankStart s
    ((t.extent 7).map fun e => (e.grants.h1, e.counts.h1)) = some (.none, 0) ∧
      t.ports.h1.outbound.contains (.event (.grantEnded 7 .h0) 1) = true ∧
      t.ports.h0.outbound = [.event (.grantEnded 7 .h1) 1] := by decide +kernel

/-- An owner leaves, step 1, by lease expiry: E7 is an orphan, H1's grant WITHDRAWING. -/
theorem test_orphan_at_expiry :
    let s := (shared .granted 1 1).setSession .h0 { joined .live with lease := 1, counter := 0 }
    let t := after (.leaseExpiry .h0) s
    ((t.extent 7).map fun e => (e.owner, e.grants.h0, e.grants.h1)) = some (none, .withdrawing, .withdrawing) ∧
      t.ports.h1.outbound.contains (.event (.grantWithdrawn 7 .h0) 1) = true := by decide +kernel

/-! ### Worked examples of chapter 6 -/

/-- Bank B1 of the arbitration example: refresh, scan, transfer units H0 and H2, clear engines H2 and H3 wait. -/
def contended : State :=
  let s := joining [.h0, .h2, .h3]
  let s := s.setRefresh .b1 { resetRefresh with owed := [37, 39], request := some 37 }
  let s := { s with scan := { s.scan with
    fetch := [{ slot := 0, part := { row := 161, kind := .read 0 8, status := .waiting } }] } }
  let s := s.setBank .b1 { resetBank with pointer := .h2, marks := ⟨.clear, .clear, .transfer, .clear⟩ }
  let job := fun (kind : JobKind) (t : Part) =>
    { resetTransfer with job := some { kind, handle := 0, offset := 0, parts := [t], damage := false, detached := false } }
  let s := s.setTransfer .h0 (job (.write 1) { row := 841, kind := .write 0 [0], status := .waiting })
  let s := s.setTransfer .h2 (job (.read 8) { row := 353, kind := .read 0 8, status := .waiting })
  let s := s.setExtent 2 (some (newExtent .h2 2401 4))
  let s := s.setExtent 3 (some (newExtent .h3 2801 4))
  (s.setClearList .h2 [2]).setClearList .h3 [3]

/-- The access granted at B1. -/
def granted (s : State) : Option (Requester × Nat) :=
  ((decideGrant s .b1).banks.get .b1).inFlight.map fun a => (a.requester, a.row)

/-- Without the scan engine's access. -/
def unscanned (s : State) : State := { s with scan := { s.scan with fetch := [] } }

/-- Without a refresh either. -/
def unowed (s : State) : State := (unscanned s).setRefresh .b1 resetRefresh

/-- Decisions 1, 2 and 4: the line fetch, refresh of row 37, the clear engine of H3 at bank row 700. -/
theorem test_grant_classes :
    granted contended = some (.scan, 161) ∧ granted (unscanned contended) = some (.refresh, 149) ∧
      granted (unowed contended) = some (.clear .h3, 2801) := by decide +kernel

/-- Decisions 5 and 6: after H3 comes H0's transfer unit; after H0, H2's clear engine, since its mark is TRANSFER. -/
theorem test_grant_round_robin :
    let s := (unowed contended).setClearList .h3 []
    let t := s.setTransfer .h0 resetTransfer
    granted (s.setBank .b1 { s.banks.b1 with pointer := .h3 }) = some (.transfer .h0, 841) ∧
      granted (t.setBank .b1 { t.banks.b1 with pointer := .h0 }) = some (.clear .h2, 2401) := by decide +kernel

/-- B2 of the starved bank at step 5: due row 304, eight rows owed, H1's write of row 305 in flight. -/
def starvedBank : State :=
  let s := joining [.h1, .h3]
  let s := s.setRefresh .b2
    { resetRefresh with due := 304, owed := [290, 292, 293, 294, 296, 298, 301, 302], request := some 290 }
  let s := s.setBank .b2
    { resetBank with inFlight := some { requester := .transfer .h1, row := 1222, kind := .write 0 [7], wanted := false } }
  s.setExtent 4 (some
    { extentOf .h1 1200 64 with grants := ⟨.none, .none, .none, .granted⟩, counts := ⟨0, 0, 0, 1⟩ })

/-- Step 5: global row 1,218 is lost; E4 is DAMAGED with lost count 1, which H1 and H3 are told. -/
theorem test_full_list_loses_a_row :
    let t := after (.tick .b2) starvedBank
    ((t.extent 4).map fun e => (e.state, e.lost)) = some (.damaged, 1) ∧
      lastFrame t .h1 = some (.event (.extentDamaged 4 1) 1) ∧
      lastFrame t .h3 = some (.event (.extentDamaged 4 1) 1) ∧ t.refresh.b2.due = 305 := by decide +kernel

/-- Step 6: row 305 becomes fresh, and the refresh of row 290 is granted. -/
theorem test_urgent_refresh_is_granted :
    let t := after (.accessCompletion .b2) starvedBank
    t.refresh.b2.fresh.getLsb 305 = true ∧
      (t.banks.b2.inFlight.map fun a => (a.requester, a.row)) = some (.refresh, 1162) := by decide +kernel

/-- Step 8: the completion of row 290 takes it from the list, and row 292 follows. -/
theorem test_refresh_completes :
    let s := starvedBank.setBank .b2
      { resetBank with inFlight := some { requester := .refresh, row := 1162, kind := .refresh, wanted := true } }
    let t := after (.accessCompletion .b2) s
    t.refresh.b2.owed = [292, 293, 294, 296, 298, 301, 302] ∧
      (t.banks.b2.inFlight.map fun a => (a.requester, a.row)) = some (.refresh, 1170) := by decide +kernel

/-! ### Worked examples of chapter 7 -/

/-- E14 of H1, granted to H3, with H3's cursor at byte 1,000. -/
def streaming (offset : Nat) : State :=
  ((joining [.h1, .h3]).setExtent 14
    (some { extentOf .h1 2400 32 with grants := ⟨.none, .none, .none, .granted⟩ })).setTransfer .h3
    { resetTransfer with cursor := some ⟨14, offset⟩ }

/-- Step 2: Read 64 at byte 1,000 makes two accesses. -/
theorem test_read_divides_at_a_row :
    ((after (.read .h3) (asking (streaming 1000) .h3 (req 0x22 [64]))).transfer.h3.job.map fun j =>
      j.parts.map fun t => (t.row, t.kind)) = some [(2401, .read 488 24), (2402, .read 0 40)] := by decide +kernel

/-- Step 5: the notice of bytes 76 to 91 of row 2,402 empties a buffer over bytes 1,064 to 1,127. -/
theorem test_write_notice_empties_buffer :
    let s := (streaming 1064).setTransfer .h3
      { cursor := some ⟨14, 1064⟩, buffer := .valid 14 1064 (List.replicate 64 0), job := none }
    (noticeWrite 2402 76 91 s).transfer.h3.buffer = .empty ∧
      (noticeWrite 2402 24 39 s).transfer.h3.buffer ≠ .empty := by decide +kernel

/-- Step 9: Read 32 at 1,128 is served from the buffer. -/
theorem test_read_from_buffer :
    let s := (streaming 1128).setTransfer .h3
      { cursor := some ⟨14, 1128⟩, buffer := .valid 14 1128 (List.replicate 64 9), job := none }
    let t := after (.read .h3) (asking s .h3 (req 0x22 [32]))
    lastFrame t .h3 = some (.response 0x11 .ok (List.replicate 32 9)) ∧
      t.transfer.h3.cursor = some ⟨14, 1160⟩ ∧ t.transfer.h3.buffer.range = (1160, 64) := by decide +kernel

/-- A word of H0 at byte 256 of E20, holding 00000011h, with an Update in flight on it. -/
def updating (op : UpdateOp) (operand : Word) : State :=
  let s := (h0Asks 0x23 []).setExtent 20 (some (extentOf .h0 0 4))
  let s := { s with store := s.store.writeAt 0 256 [0, 0, 0, 0x11] }
  let s := s.setPort .h0 { s.ports.h0 with executing := true }
  let s := s.setTransfer .h0
    { cursor := some ⟨20, 256⟩, buffer := .empty,
      job := some { kind := .update, handle := 20, offset := 256, damage := false, detached := false,
                    parts := [{ row := 0, kind := .update 256 op operand, status := .granted }] } }
  s.setBank .b0 { resetBank with
    inFlight := some { requester := .transfer .h0, row := 0, kind := .update 256 op operand, wanted := true } }

/-- Step 1: OR 00000100h answers the old word 00000011h and leaves 00000111h; the cursor stays. -/
theorem test_update_or :
    let t := after (.accessCompletion .b0) (updating .or 0x100)
    lastFrame t .h0 = some (.response 0x11 .ok [0, 0, 0, 0x11]) ∧ t.store.bytesAt 0 256 4 = [0, 0, 1, 0x11] ∧
      t.transfer.h0.cursor = some ⟨20, 256⟩ := by decide +kernel

/-- Step 4: an Update at byte 258 is answered FIELD. -/
theorem test_update_unaligned :
    let s := ((h0Asks 0x23 [1, 0, 0, 0, 1]).setExtent 20 (some (extentOf .h0 0 4))).setTransfer .h0
      { resetTransfer with cursor := some ⟨20, 258⟩ }
    lastFrame (after (.update .h0) s) .h0 = some (.response 0x11 .field []) := by decide +kernel

/-! ### Worked examples of chapter 8 -/

/-- Blocks of a run owned by a port. -/
def owning (s : State) (p : PortId) (first count : Nat) : State := claimRun p first count s

/-- Step 7 with a count of 4: P16 is H1's, P20 free; H2 is given P17. -/
theorem test_claim_palette_lowest_run :
    let s := owning (owning (joining [.h2]) .h0 0 16) .h1 16 1
    lastFrame (after (.claimPalette .h2) (asking s .h2 (req 0x28 [4, 1]))) .h2 =
      some (.response 0x11 .ok [17]) := by decide +kernel

/-- An INDEX8 group: the runs at P0, P16 and P32 hold owned blocks, so H3 is given P48. -/
theorem test_claim_palette_aligned :
    let s := owning (owning (owning (joining [.h3]) .h0 0 16) .h1 16 3) .h2 32 4
    lastFrame (after (.claimPalette .h3) (asking s .h3 (req 0x28 [16, 16]))) .h3 =
      some (.response 0x11 .ok [48]) := by decide +kernel

/-- Step 4: P20 is the live palette base of L5, so its release is IN_USE. -/
theorem test_release_palette_in_use :
    let s := (owning (joining [.h1]) .h1 16 5).setSlot 5
      (.held .owned .h1 { layer .index4 18 8 8 with paletteBase := some 20 })
    lastFrame (after (.releasePalette .h1) (asking s .h1 (req 0x29 [20, 1]))) .h1 =
      some (.response 0x11 .inUse []) := by decide +kernel

/-- Step 2: a Palette Write changes the shadow entry and not the live one. -/
theorem test_palette_write :
    let t := after (.paletteWrite .h1) (asking (owning (joining [.h1]) .h1 16 1) .h1 (req 0x2A [16, 3, 0xFF, 0xB0, 0]))
    ((t.block 16).shadow[3], (t.block 16).live[3], (t.block 16).dirty) = (0xFFB000, 0, true) := by decide +kernel

/-! ### Worked examples of chapter 9 -/

/-- The plan D1: H1 has two layers in 16 to 23, H2 six in 24 to 47. -/
def planD1 : Plan :=
  let q := defaultPlan.quotas
  { defaultPlan with quotas :=
      { q with h1 := { q.h1 with layers := 2, band := some ⟨16, 23⟩ }
               h2 := { q.h2 with layers := 6, band := some ⟨24, 47⟩ } } }

/-- The proposal of H2, with the ports that have accepted. -/
def proposalD1 (accepted : PerPort Bool) : Proposal :=
  { plan := planD1, proposer := .h2, voters := ⟨true, true, true, false⟩, accepted, remaining := 127 }

/-- Step 1: H2's Propose creates a proposal in VOTING. -/
theorem test_propose :
    let t := after (.propose .h2) (asking (joining [.h0, .h1, .h2]) .h2 (req 0x05 (encodePlan planD1)))
    t.session.planState = .voting { proposalD1 ⟨false, false, true, false⟩ with remaining := 128 } ∧
      lastFrame t .h0 = some (.event (.planProposed .h2 (planDigest planD1)) 1) := by decide +kernel

/-- The four ports, while H0 and H2 have accepted. -/
def voting : State :=
  (joining [.h0, .h1, .h2, .h3]).setPlanState (.voting (proposalD1 ⟨true, false, true, false⟩))

/-- Step 4: H3 is no voter; step 7: H1's accept is the last, and the state is ADOPTING. -/
theorem test_vote_of_no_voter :
    lastFrame (after (.vote .h3) (asking voting .h3 (req 0x06 (1 :: encode16 (planDigest planD1).toNat)))) .h3 =
      some (.response 0x11 .stale []) := by decide +kernel
theorem test_last_vote_adopts :
    (after (.vote .h1) (asking voting .h1 (req 0x06 (1 :: encode16 (planDigest planD1).toNat)))).session.planState =
      .adopting (proposalD1 ⟨true, true, true, false⟩) := by decide +kernel

/-- Step 8: H1's L5 at z 28 does not fit: GEOMETRY for H1, and the default plan stays. -/
theorem test_adoption_fails_on_geometry :
    let s := (atLine (joining [.h0, .h1, .h2, .h3]) .active 479).setPlanState
      (.adopting (proposalD1 ⟨true, true, true, false⟩))
    let s := s.setSlot 5 (.held .owned .h1 (defaultDescriptor 28))
    let t := after .blankStart s
    t.session.plan = defaultPlan ∧ t.session.planState = .steady ∧
      lastFrame t .h3 = some (.event (.planFailed .geometry .h1) 1) := by decide +kernel

/-- A lease runs out, step 3: the queued Status and Read go, LEASE_EXPIRED is the only frame, and the credit is 3. -/
theorem test_lease_expiry :
    let s := (joining [.h0, .h1]).setSession .h1 { joined .live with lease := 3, counter := 0 }
    let s := s.setPort .h1 { s.ports.h1 with
      requests := [req 0x21 [0], req 0x01 [], req 0x22 [1]], executing := true, outbound := [.event (.clearDone 2) 1] }
    let t := after (.leaseExpiry .h1) s
    t.ports.h1.outbound = [.event .leaseExpired 1] ∧ t.ports.h1.requests = [req 0x21 [0]] ∧
      credit t.ports.h1 = 3 ∧ lastFrame t .h0 = some (.event (.peerLeft .h1) 1) := by decide +kernel

/-- Step 7: the Join with lease 50 and view LIVE. -/
theorem test_join :
    let t := after (.join .h1) (asking (joining [.h0]) .h1 (req 0x02 [50, 0]))
    t.session.records.h1 = { state := .joined, lease := 50, counter := 50, view := .live, cause := none } ∧
      lastFrame t .h0 = some (.event (.peerJoined .h1) 1) := by decide +kernel

/-! ### Worked examples of chapter 10 -/

/-- H2 with four undelivered responses: the credit is 0. -/
def burst : State :=
  let s := joining [.h2]
  let r := fun tag => Frame.response tag .ok []
  s.setPort .h2 { s.ports.h2 with outbound := [r 1, r 2, r 3, .event (.peerJoined .h3) 1, r 4] }

/-- Step 6: the Claim Layer is discarded with OVERRUN, and the queue stays. -/
theorem test_overrun :
    let inbound := [0, 5, 8, crc8 [0, 5, 8]]
    let t := after (.transactionEnd .h2 inbound 0) (after (.transactionStart .h2) burst)
    t.ports.h2.flags.overrun = true ∧ t.ports.h2.requests = [] ∧ t.ports.h2.outbound.length = 5 := by decide +kernel

/-- Step 7: a Poll that clocks R1 whole shows MORE and OVERRUN, delivers R1 and clears OVERRUN. -/
theorem test_poll_delivers :
    let s := burst.setPort .h2 { burst.ports.h2 with flags := { noFlags with overrun := true } }
    let t := after (.transactionStart .h2) s
    let u := after (.transactionEnd .h2 (List.replicate 6 0xFF) 0) t
    (t.ports.h2.transaction.map fun x => x.bytes.headD 0) = some 0xC4 ∧ u.ports.h2.flags = noFlags ∧
      u.ports.h2.outbound = burst.ports.h2.outbound.tail ∧ credit u.ports.h2 = 1 := by decide +kernel

/-- A full event queue: four results of W0, three of W1, a fault of W3, two underruns of L2, and two more. -/
def fullQueue : PortController :=
  let e := fun x => Frame.event x 1
  let w := fun n => e (.checkResult n .pass 0)
  { resetPort true with
    outbound := [w 0, w 1, w 0, w 1, w 0, w 1, w 0, e (.checkFault 3 .h2 2 0), e (.underrun 2 1), e (.underrun 2 2),
      e (.peerLeft .h1), e (.planAdopted 1)] }

/-- CHECK_RESULT of W1 goes into the newest W1 entry with repeat count 2; UNDERRUN of L5 is dropped. -/
theorem test_full_queue :
    (fullQueue.takeEvent (.checkResult 1 .fail 5)).outbound[5]? = some (.event (.checkResult 1 .fail 5) 2) ∧
      (fullQueue.takeEvent (.underrun 5 812)).outbound = fullQueue.outbound ∧
      (fullQueue.takeEvent (.underrun 5 812)).flags.eventsDropped = true := by decide +kernel

/-- A request with an unlisted code is answered UNKNOWN (R197). -/
theorem test_unknown_code :
    lastFrame (after (.unknownCode .h0) (h0Asks 0x07 [])) .h0 = some (.response 0x11 .unknown []) := by
  decide +kernel

/-- The fifth byte of a Status response frame is its length, 24 (R172, R192). -/
theorem test_status_length :
    let t := after (.transactionStart .h0) (after (.status .h0) (h0Asks 0x01 []))
    (t.ports.h0.transaction.map fun x => (x.bytes.length, x.bytes[4]?)) = some (30, some 24) := by decide +kernel

/-- A command whose event is not due changes nothing: no access is in flight at B0 (log 2). -/
theorem test_no_access_to_complete : after (.accessCompletion .b0) State.reset = State.reset := by decide +kernel

/-! ### States that meet the hypotheses of the statements, with each clause at a boundary of its range

`witness_X` is for `Obligations.X`. -/

theorem witness_StepRunsFrontCommand :
    ({ State.reset with pending := [.voteTimeout, .lineStart] } : State).pending = .voteTimeout :: [.lineStart] := rfl

/-- RESET_N low; pixel times 998 and 999 of a line of 1,000, in a line that ends quietly and in one that does not. -/
theorem witness_IdleStepIsOnePixelTime :
    let at_ := fun (line px : Nat) => { State.reset with scan := { State.reset.scan with lineNo := line, pixelTime := px } };
    ({ State.reset with resetN := false } : State).pending = [] ∧
      (at_ 0 998).pending = [] ∧ (at_ 0 998).resetN = true ∧
      (at_ 0 998).scan.pixelTime + 1 < (at_ 0 998).scan.timing.width + (at_ 0 998).scan.timing.hblank ∧
      ¬((at_ 0 999).scan.pixelTime + 1 < (at_ 0 999).scan.timing.width + (at_ 0 999).scan.timing.hblank) ∧
      ((at_ 17 999).scan.phase = .blank ∧ (at_ 17 999).scan.lineNo + 2 < (at_ 17 999).scan.timing.vblank) ∧
      ¬((at_ 18 999).scan.lineNo + 2 < (at_ 18 999).scan.timing.vblank) := by decide

theorem witness_ResetAssertResetsTheBlocks : (999 : Nat) < 1000 ∧ 1000 ≤ (1000 : Nat) ∧ twoPorts.resetN = true := by
  decide

/-- The part while RESET_N is low. -/
def held : State := after (.resetAssert 1000) twoPorts

theorem witness_ResetReleaseGivesTheResetState : held.resetN = false := by decide +kernel

theorem witness_NothingHappensWhileResetIsLow : held.resetN = false := by decide +kernel

/-- An empty queue and one with a frame at its head. -/
theorem witness_TransactionStartFixesTheFrame :
    ready (joining [.h0]) = true ∧ ((joining [.h0]).ports.get .h0).selHigh = true ∧
      ready burst = true ∧ (burst.ports.get .h2).selHigh = true := by decide +kernel

/-- A transaction of H2 with R1 at the head, ended with no byte and with a Poll. -/
theorem witness_TransactionEndDelivers :
    let s := after (.transactionStart .h2) burst;
    ready s = true ∧ (s.ports.get .h2).selHigh = false ∧ (s.ports.get .h2).transaction.isSome = true ∧
      (([] : List Byte) = [] ∨ ([] : List Byte).head? = some 0xFF) ∧
      ([0xFF, 0xFF, 0xFF, 0xFF, 0xFF, 0xFF] : List Byte).head? = some 0xFF := by decide +kernel

/-- A bad frame; a valid one with credit 1 and with credit 0; lengths 50h, 51h and FEh; a payload of 80 bytes. -/
theorem witness_TransactionEndTakesTheRequest :
    let s := after (.transactionStart .h2) burst;
    let r : Request := ⟨5, 8, []⟩;
    let inbound : List Byte := [0, 5, 8, crc8 [0, 5, 8]];
    let fewer := s.setPort .h2 { s.ports.h2 with outbound := s.ports.h2.outbound.tail };
    ready s = true ∧ (s.ports.get .h2).selHigh = false ∧ (s.ports.get .h2).transaction.isSome = true ∧
      judgeInbound [0x51] = .bad ∧ judgeInbound inbound = .request r ∧
      4 ≤ (s.ports.get .h2).requests.length + (s.ports.get .h2).outbound.countP Frame.isResponse ∧
      (fewer.ports.get .h2).requests.length + (fewer.ports.get .h2).outbound.countP Frame.isResponse < 4 ∧
      0x51 ≤ (0x51 : Byte).toNat ∧ (0xFE : Byte).toNat ≤ 0xFE ∧
      ((0x50 : Byte).toNat ≤ 0x50 ∧ ((0x50 : Byte) :: List.replicate 82 0).length < (0x50 : Byte).toNat + 4) ∧
      (List.replicate 80 (0 : Byte)).length ≤ 80 := by decide +kernel

theorem witness_UnknownCodeIsAnswered :
    asks (h0Asks 0x07 []) .h0 (req 0x07 []) = true ∧
      (0x07 : Byte).toNat ∉ [0x01, 0x02, 0x03, 0x04, 0x05, 0x06, 0x08, 0x09, 0x0A, 0x0B, 0x0C, 0x0D, 0x0E, 0x10, 0x11,
        0x12, 0x13, 0x14, 0x15, 0x18, 0x19, 0x1A, 0x1B, 0x1C, 0x1D, 0x20, 0x21, 0x22, 0x23, 0x28, 0x29, 0x2A, 0x2B] := by
  decide +kernel

/-- Eleven events; twelve with W1's newest entry at the sixth place; twelve without a match; a request to be answered. -/
theorem witness_EventsAreQueuedCoalescedOrDropped :
    ({ fullQueue with outbound := fullQueue.outbound.tail } : PortController).outbound.countP Frame.isEvent < 12 ∧
      12 ≤ fullQueue.outbound.countP Frame.isEvent ∧
      fullQueue.outbound =
        fullQueue.outbound.take 5 ++ .event (.checkResult 1 .pass 0) 1 :: fullQueue.outbound.drop 6 ∧
      (Event.checkResult 1 .pass 0).sameSubject (.checkResult 1 .fail 5) = true ∧
      (fullQueue.outbound.drop 6).all (fun f => match f with
        | .event d _ => !d.sameSubject (.checkResult 1 .fail 5)
        | .response _ _ _ => true) = true ∧
      fullQueue.headFixed = false ∧
      (fullQueue.outbound.all fun f => match f with
        | .event d _ => !d.sameSubject (.underrun 5 812)
        | .response _ _ _ => true) = true ∧
      ((h0Asks 0x01 []).ports.get .h0).requests = req 0x01 [] :: [] := by decide +kernel

/-- A Status of one byte; a Leave in ABSENT; a Stage of kind 1 in DRAINING. -/
theorem witness_RequestsAreRefusedInOrder :
    (requestOf (.status .h0) = some (.h0, 0x01, none) ∧ asks (h0Asks 0x01 [0]) .h0 (req 0x01 [0]) = true ∧
      permittedLength 0x01 1 = false) ∧
    (requestOf (.leave .h1) = some (.h1, 0x03, none) ∧
      asks (asking State.reset .h1 (req 0x03 [])) .h1 (req 0x03 []) = true ∧ permittedLength 0x03 0 = true ∧
      State.reset.sessionState .h1 = .absent ∧ (0x03 : Byte).toNat ∉ [1, 2, 4]) ∧
    (let s := (asking State.reset .h1 (req 0x0B [0x03, 0])).setSession .h1
        { joined .live with state := .draining, cause := some .leave };
      requestOf (.showLayer .h1) = some (.h1, 0x0B, some 0x03) ∧ asks s .h1 (req 0x0B [0x03, 0]) = true ∧
        [(0x03 : Byte), 0].head? = some 0x03 ∧ permittedLength 0x0B 2 = true ∧ s.sessionState .h1 = .draining) := by
  decide +kernel

/-- Records at the ends of their ranges. -/
theorem witness_RecordsDecodeToWhatWasEncoded :
    planD1.inRange = true ∧
      Plan.inRange { defaultPlan with timing := { width := 1024, height := 768, hblank := 1023, vblank := 255, divider := 16 } }
        = true ∧
      Plan.inRange { defaultPlan with timing := { width := 64, height := 64, hblank := 32, vblank := 4, divider := 1 } }
        = true ∧
      Descriptor.inRange { layer .direct16 63 1024 1024 with
        x := -4096, y := 4095, ax := 1023, ay := 0, source := some ⟨31, 2097151, 4096⟩, paletteBase := some 63,
        key := some 0xFFFF, clip := some ⟨0, 4095, 0, 4095⟩ } = true ∧
      (box 1023 767 1024 768 .continuous 15 .faults).inRange = true ∧ (box 0 0 1 1 .oneShot 1 .results).inRange = true ∧
      positionInRange (-4096) = true ∧ positionInRange 4095 = true ∧ Source.inRange ⟨0, 0, 1⟩ = true ∧
      Clip.inRange ⟨0, 0, 4095, 4095⟩ = true ∧ (List.replicate 6 (0 : Byte)).length = 6 ∧
      (List.replicate 8 (0 : Byte)).length = 8 := by decide

theorem witness_PlanQueriesAnswer :
    asks (h0Asks 0x01 []) .h0 (req 0x01 []) = true ∧
      (asks (h0Asks 0x04 [0]) .h0 (req 0x04 [0]) = true ∧ (h0Asks 0x04 [0]).sessionState .h0 ≠ .draining) ∧
      (asks (h0Asks 0x04 [1]) .h0 (req 0x04 [1]) = true ∧ (h0Asks 0x04 [1]).session.planState.proposal? = none) ∧
      (asks (asking voting .h0 (req 0x04 [1])) .h0 (req 0x04 [1]) = true ∧
        voting.session.planState.proposal?.isSome = true) ∧
      (asks (h0Asks 0x04 [2]) .h0 (req 0x04 [2]) = true ∧ 2 ≤ (2 : Byte).toNat) := by decide +kernel

/-- A JOINED port; an ABSENT one with views 2 and 1. -/
theorem witness_JoinOpensASession :
    (asks (h0Asks 0x02 [50, 0]) .h0 (req 0x02 [50, 0]) = true ∧ (h0Asks 0x02 [50, 0]).sessionState .h0 = .joined) ∧
      (asks (asking State.reset .h1 (req 0x02 [50, 2])) .h1 (req 0x02 [50, 2]) = true ∧
        State.reset.sessionState .h1 = .absent ∧ 2 ≤ (2 : Byte).toNat) ∧
      (asks (asking State.reset .h1 (req 0x02 [0, 1])) .h1 (req 0x02 [0, 1]) = true ∧ (1 : Byte).toNat < 2) := by
  decide +kernel

theorem witness_LeaveAndLeaseExpiryStartTheTeardown :
    asksFor (h0Asks 0x03 []) .h0 (req 0x03 []) 0x03 0 = true ∧
      (let s := (shared .granted 1 1).setSession .h0 { joined .live with lease := 1, counter := 0 };
        s.resetN = true ∧ s.sessionState .h0 = .joined ∧ (s.session.records.get .h0).lease ≠ 0 ∧
          (s.session.records.get .h0).counter = 0 ∧ (s.ports.get .h0).executing = false) := by decide +kernel

/-- A plan that is not valid: H0's layer quota is past its band. -/
def invalidPlan : Plan :=
  let q := defaultPlan.quotas;
  { defaultPlan with quotas := { q with h0 := { q.h0 with layers := 4, band := some ⟨0, 2⟩ } } }

/-- A proposal exists; a plan out of range (all bytes FFh), one not valid, and D1 in STEADY. -/
theorem witness_ProposeCreatesAProposal :
    (asksFor (asking voting .h0 (req 0x05 (encodePlan planD1))) .h0 (req 0x05 (encodePlan planD1)) 0x05 44 = true ∧
      voting.session.planState.proposal? ≠ none) ∧
    (asksFor (h0Asks 0x05 (List.replicate 44 0xFF)) .h0 (req 0x05 (List.replicate 44 0xFF)) 0x05 44 = true ∧
      (joining [.h0]).session.planState = .steady ∧ decodePlan (List.replicate 44 0xFF) = none) ∧
    (asksFor (h0Asks 0x05 (encodePlan invalidPlan)) .h0 (req 0x05 (encodePlan invalidPlan)) 0x05 44 = true ∧
      decodePlan (encodePlan invalidPlan) = some invalidPlan ∧ planValid invalidPlan = false) ∧
    (asksFor (h0Asks 0x05 (encodePlan planD1)) .h0 (req 0x05 (encodePlan planD1)) 0x05 44 = true ∧
      decodePlan (encodePlan planD1) = some planD1 ∧ planValid planD1 = true) := by decide +kernel

/-- Decision 2; H3, who is no voter; H1's accept and reject; a proposal with nothing remaining, which H1 misses. -/
theorem witness_VotesAreCountedAndTimeOut :
    let d := (planDigest planD1).toNat;
    let q := proposalD1 ⟨true, false, true, false⟩;
    let late := { q with remaining := 0 };
    (asksFor (asking voting .h1 (req 0x06 (2 :: encode16 d))) .h1 (req 0x06 (2 :: encode16 d)) 0x06 3 = true ∧
      2 ≤ (2 : Byte).toNat) ∧
    (asksFor (asking voting .h3 (req 0x06 (1 :: encode16 d))) .h3 (req 0x06 (1 :: encode16 d)) 0x06 3 = true ∧
      (1 : Byte).toNat < 2 ∧ q.voters.get .h3 = false) ∧
    (asksFor (asking voting .h1 (req 0x06 (1 :: encode16 d))) .h1 (req 0x06 (1 :: encode16 d)) 0x06 3 = true ∧
      asksFor (asking voting .h1 (req 0x06 (0 :: encode16 d))) .h1 (req 0x06 (0 :: encode16 d)) 0x06 3 = true ∧
      voting.session.planState = .voting q ∧ q.voters.get .h1 = true ∧ q.accepted.get .h1 = false) ∧
    ((voting.setPlanState (.voting late)).resetN = true ∧
      (voting.setPlanState (.voting late)).session.planState = .voting late ∧ late.remaining = 0 ∧
      late.voters.get .h1 = true ∧ late.accepted.get .h1 = false ∧
      (allPorts.all fun v => !late.voters.get v || late.accepted.get v || decide (1 ≤ portNumber v)) = true) := by
  decide +kernel

/-- At the quota; and under it, with L4 the lowest FREE slot and z 17 the lowest depth. -/
theorem witness_ClaimLayerGivesASlot :
    let s := claims.setSlot 5 .free;
    asksFor (asking claims .h0 (req 0x08 [])) .h0 (req 0x08 []) 0x08 0 = true ∧
      (claims.quotas .h0).layers ≤ slotsOwned claims .h0 ∧
      asksFor (asking s .h1 (req 0x08 [])) .h1 (req 0x08 []) 0x08 0 = true ∧
      slotsOwned s .h1 < (s.quotas .h1).layers ∧ s.slot 5 = .free ∧ (∀ m : Fin 16, m < 5 → s.slot m ≠ .free) ∧
      inBand 17 (s.quotas .h1).band = true ∧ depthHeld s .h1 17 = false ∧
      ∀ y : Fin 64, y < 17 → inBand y.val (s.quotas .h1).band = true → depthHeld s .h1 y = true := by decide +kernel

theorem witness_SetViewSetsTheView :
    (asksFor (h0Asks 0x0A [1]) .h0 (req 0x0A [1]) 0x0A 1 = true ∧ (1 : Byte).toNat < 2) ∧
      asksFor (h0Asks 0x0A [2]) .h0 (req 0x0A [2]) 0x0A 1 = true ∧ 2 ≤ (2 : Byte).toNat := by decide +kernel

/-- L15 FREE, L5 projected and not; W7 FREE and W5; E31 free, E7 ungranted and owned; P63's shadow and live copy. -/
theorem witness_RecordQueriesAnswer :
    (asksFor (asking views .h1 (req 0x09 [15])) .h1 (req 0x09 [15]) 0x09 1 = true ∧ views.slot 15 = .free) ∧
    (asksFor (asking views .h1 (req 0x09 [5])) .h1 (req 0x09 [5]) 0x09 1 = true ∧
      asksFor (asking views .h2 (req 0x09 [5])) .h2 (req 0x09 [5]) 0x09 1 = true ∧ (views.slot 5).ownedBy .h1 = true ∧
      (views.session.records.get .h1).view = .staged ∧ (views.commit.batches.get .h1).state ≠ .empty) ∧
    (let s := (h0Asks 0x15 [5]).setWindow 5 (some (oneShot .idle));
      asksFor s .h0 (req 0x15 [5]) 0x15 1 = true ∧ (s.window 5).isSome = true ∧
        asksFor (h0Asks 0x15 [7]) .h0 (req 0x15 [7]) 0x15 1 = true ∧ (h0Asks 0x15 [7]).window 7 = none) ∧
    (let e := shared .none 0 0;
      asksFor (asking e .h0 (req 0x1D [31])) .h0 (req 0x1D [31]) 0x1D 1 = true ∧ e.extent 31 = none ∧
        asksFor (asking e .h1 (req 0x1D [7])) .h1 (req 0x1D [7]) 0x1D 1 = true ∧
        asksFor (asking e .h0 (req 0x1D [7])) .h0 (req 0x1D [7]) 0x1D 1 = true ∧
        (e.extent 7).map (fun x => (x.owner, x.grants.get .h1)) = some (some .h0, .none)) ∧
    (asksFor (h0Asks 0x2B [63, 1, 15, 1]) .h0 (req 0x2B [63, 1, 15, 1]) 0x2B 4 = true ∧
      ((h0Asks 0x2B [63, 1, 15, 1]).block 63).owner ≠ some .h0 ∧
      asksFor (h0Asks 0x2B [63, 0, 0, 16]) .h0 (req 0x2B [63, 0, 0, 16]) 0x2B 4 = true ∧
      [byteOf 63, byteOf true.toNat, byteOf 15, byteOf 1] = [63, 1, 15, 1] ∧
      [byteOf 63, byteOf false.toNat, byteOf 0, byteOf 16] = [63, 0, 0, 16] ∧ 15 + 1 ≤ 16 ∧ 0 + 16 ≤ 16) := by
  decide +kernel

/-- H0 with its slot L0 and a batch of `n` edits in a state, asking to Stage. -/
def staging (state : BatchState) (n : Nat) (payload : List Byte) : State :=
  ((h0Asks 0x0B payload).setSlot 0 (.held .owned .h0 (defaultDescriptor 0))).setBatch .h0
    { state, edits := List.replicate n (.showSlot 0), target := none }

/-- Show of L0 as edit 32; a CLOSED batch; a slot of 16; a slot of no owner; a batch of 32 edits; a Publish. -/
theorem witness_StageAppendsTheEdit :
    let s := staging .opened 31 [3, 0];
    (((0x03, Instr.showLayer) : Byte × (PortId → Instr)).1 = 3 ∧ asks s .h0 (req 0x0B [3, 0]) = true ∧
      s.sessionState .h0 = .joined ∧ [(3 : Byte), 0].head? = some 0x03 ∧
      decodeEdit [3, 0] = some (.showSlot 0) ∧ (s.slot 0).ownedBy .h0 = true ∧
      (s.commit.batches.get .h0).state ≠ .closed ∧ (s.commit.batches.get .h0).edits.length < 32) ∧
    decodeEdit [0x0A, 63] = some (.publish 63) ∧
    (asks (staging .closed 1 [3, 0]) .h0 (req 0x0B [3, 0]) = true ∧ permittedLength 0x0B 2 = true ∧
      ((staging .closed 1 [3, 0]).commit.batches.get .h0).state = .closed) ∧
    (asks (staging .empty 0 [3, 16]) .h0 (req 0x0B [3, 16]) = true ∧ decodeEdit [3, 16] = none) ∧
    (asks (staging .empty 0 [3, 15]) .h0 (req 0x0B [3, 15]) = true ∧ decodeEdit [3, 15] = some (.showSlot 15) ∧
      ((staging .empty 0 [3, 15]).slot 15).ownedBy .h0 = false) ∧
    32 ≤ ((staging .opened 32 [3, 0]).commit.batches.get .h0).edits.length := by decide +kernel

/-- The projection of L5 by the two edits of the example of two views, after a Retire and after a Set Layer. -/
theorem witness_StageAppendsTheEdit_projection :
    let edits := (views.commit.batches.get .h1).edits;
    let d := layer .fill 30 1 1;
    project 5 d edits = { desc := { d with x := 200, y := 100, z := 25 }, retire := false } ∧
      (project 5 d (edits ++ [.retire 5])).retire = true ∧
      project 5 d (edits ++ [.retire 5] ++ [.setLayer 5 d]) = { desc := d, retire := false } := by decide +kernel

/-- The row of the witness above is one of the eleven. -/
theorem witness_StageAppendsTheEdit_row : (0x03, Instr.showLayer) ∈ stageRows := by simp [stageRows]

theorem witness_BatchesAreClosedAndAbandoned :
    let s := fun state payload => (asking (staging state 1 []) .h0 (req 0x0C payload));
    (asks (s .opened []) .h0 (req 0x0C []) = true ∧ (s .opened []).sessionState .h0 = .joined ∧
      ((s .opened []).commit.batches.get .h0).state = .opened) ∧
    (asks (s .opened [0xFF, 0xFF]) .h0 (req 0x0C [0xFF, 0xFF]) = true ∧
      [(0xFF : Byte), 0xFF] = encode16 (0xFFFF : Half).toNat) ∧
    (asks (s .empty []) .h0 (req 0x0C []) = true ∧ ((s .empty []).commit.batches.get .h0).state = .empty ∧
      asks (s .closed []) .h0 (req 0x0C []) = true ∧ ((s .closed []).commit.batches.get .h0).state = .closed) ∧
    (asksFor (asking (staging .closed 1 []) .h0 (req 0x0D [])) .h0 (req 0x0D []) 0x0D 0 = true ∧
      asksFor (asking (staging .empty 1 []) .h0 (req 0x0D [])) .h0 (req 0x0D []) 0x0D 0 = true) := by decide +kernel

/-- H0 moves L15 to (-4096, 4095), in either phase; L15 of no owner, not movable, and where it stands. -/
def moving (phase : Phase) (movable : Bool) (x y : Int) : State :=
  (atLine (h0Asks 0x0E (15 :: (encodeSigned x ++ encodeSigned y))) phase 1).setSlot 15
    (.held .owned .h0 { layer .fill 0 4 4 with movable })

theorem witness_MoveNowMovesTheLayer :
    let p := (15 : Byte) :: (encodeSigned (-4096) ++ encodeSigned 4095);
    let still := (15 : Byte) :: (encodeSigned 0 ++ encodeSigned 0);
    positionInRange (-4096) = true ∧ positionInRange 4095 = true ∧ p = byteOf 15 :: (encodeSigned (-4096) ++ encodeSigned 4095) ∧
    (asksFor (h0Asks 0x0E p) .h0 (req 0x0E p) 0x0E 5 = true ∧ ((h0Asks 0x0E p).slot 15).ownedBy .h0 = false) ∧
    (asksFor (moving .active false (-4096) 4095) .h0 (req 0x0E p) 0x0E 5 = true ∧
      asksFor (moving .active true (-4096) 4095) .h0 (req 0x0E p) 0x0E 5 = true ∧
      asksFor (moving .blank true (-4096) 4095) .h0 (req 0x0E p) 0x0E 5 = true ∧
      asksFor (moving .active true 0 0) .h0 (req 0x0E still) 0x0E 5 = true ∧
      ((moving .active true 0 0).slot 15).live?.map (fun d => (d.movable, d.visible, d.x, d.y)) =
        some (true, true, 0, 0) ∧
      (moving .active true 0 0).scan.phase = .active ∧ (moving .blank true 0 0).scan.phase = .blank) ∧
    (let a := screenRect { layer .fill 0 4 4 with x := -2 };
      1 ≤ a.width ∧ 1 ≤ a.height ∧ a.meets ⟨1, 3, 1, 1⟩ = true ∧ a.meets ⟨2, 3, 1, 1⟩ = false) := by
  decide +kernel

/-- A rectangle that reaches the last column and line; one past it; settings out of range; no window left of two;
W0 IDLE and ARMED. -/
theorem witness_WindowsAreDefinedAndChanged :
    let good := box 704 448 96 32 .oneShot 1 .results;
    let past := box 705 448 96 32 .oneShot 1 .results;
    let w := some (win .idle good);
    (asksFor (h0Asks 0x10 (encodeSettings good)) .h0 (req 0x10 (encodeSettings good)) 0x10 13 = true ∧
      decodeSettings (encodeSettings good) 0 = some good ∧ good.x + good.w ≤ 800 ∧ good.y + good.h ≤ 480 ∧
      windowsOwned State.reset .h0 < (State.reset.quotas .h0).windows ∧ State.reset.window 0 = none) ∧
    (decodeSettings (encodeSettings past) 0 = some past ∧ ¬(past.x + past.w ≤ 800)) ∧
    decodeSettings (List.replicate 13 0) 0 = none ∧
    (let s := ((h0Asks 0x10 (encodeSettings good)).setWindow 0 w).setWindow 1 w;
      asksFor s .h0 (req 0x10 (encodeSettings good)) 0x10 13 = true ∧ (s.quotas .h0).windows ≤ windowsOwned s .h0) ∧
    (let s := fun state => (h0Asks 0x11 (0 :: encodeSettings good)).setWindow 0 (some (win state good));
      asksFor (s .idle) .h0 (req 0x11 (0 :: encodeSettings good)) 0x11 14 = true ∧
        asksFor (s .armed) .h0 (req 0x11 (0 :: encodeSettings good)) 0x11 14 = true ∧
        ((s .idle).window 0).map Window.owner = some .h0 ∧
        decodeSettings (0 :: encodeSettings good) 1 = some good) := by decide +kernel

/-- W7 in each state, for Arm, Disarm and Free Window; number 8; W7 FREE; W7 of H0 asked for by H1. -/
theorem witness_WindowsAreArmedDisarmedAndFreed :
    let s := fun code state => (h0Asks code [7]).setWindow 7 (some (oneShot state));
    ([(0x12 : Byte), 0x13, 0x14].all fun code => [WinState.idle, .armed, .running, .halted].all fun state =>
      asks (s code state) .h0 (req code [7]) && decide ((s code state).sessionState .h0 = .joined) &&
        decide (((s code state).window 7).map Window.owner = some .h0)) = true ∧
    (asks (h0Asks 0x12 [8]) .h0 (req 0x12 [8]) = true ∧ permittedLength 0x12 1 = true ∧ 8 ≤ (8 : Byte).toNat) ∧
    (asks (h0Asks 0x12 [7]) .h0 (req 0x12 [7]) = true ∧ (h0Asks 0x12 [7]).window 7 = none) ∧
    (let t := asking ((joining [.h1]).setWindow 7 (some (oneShot .idle))) .h1 (req 0x12 [7]);
      asks t .h1 (req 0x12 [7]) = true ∧ t.sessionState .h1 = .joined ∧ (t.window 7).map Window.owner ≠ some .h1) := by
  decide +kernel

/-- Row counts 0, 4,097 and 4,096; the placement of 300 rows: every row from 2,048 on is free, row 2,047 is not. -/
theorem witness_AllocExtentIsFirstFit :
    let s := fun n => asking placed .h2 (req 0x18 (encode16 n));
    (asksFor (s 0) .h2 (req 0x18 (encode16 0)) 0x18 2 = true ∧
      asksFor (s 4097) .h2 (req 0x18 (encode16 4097)) 0x18 2 = true ∧
      asksFor (s 4096) .h2 (req 0x18 (encode16 4096)) 0x18 2 = true ∧
      (placed.quotas .h2).rows < rowsOwned placed .h2 + 4096) ∧
    (asksFor (s 300) .h2 (req 0x18 (encode16 300)) 0x18 2 = true ∧ extentsInv placed = true ∧
      extentsOwned placed .h2 < (placed.quotas .h2).extents ∧
      rowsOwned placed .h2 + 300 ≤ (placed.quotas .h2).rows ∧ placed.extent 2 = none ∧
      (∀ k : Fin 32, k < 2 → placed.extent k ≠ none) ∧ rowsInFlight placed = [] ∧ rowsBeingWritten placed = [] ∧
      (takenRuns placed).all (fun r => decide (r.1 + r.2 ≤ 2048)) = true ∧
      (takenRuns placed).contains (1792, 256) = true) := by decide +kernel

theorem witness_FreeExtentFreesTheHandle :
    let s := fun count => asking (shared .granted count 0) .h0 (req 0x19 [7]);
    asksFor (s 1) .h0 (req 0x19 [7]) 0x19 1 = true ∧ asksFor (s 0) .h0 (req 0x19 [7]) 0x19 1 = true ∧
      ((s 1).extent 7).map (fun e => (e.owner, e.allocator, e.counts)) = some (some .h0, .h0, ⟨1, 0, 0, 0⟩) ∧
      ((s 0).extent 7).map (fun e => (e.owner, e.allocator, e.counts)) = some (some .h0, .h0, ⟨0, 0, 0, 0⟩) := by
  decide +kernel

/-- Grants and Revokes of E7 to H0 itself, to the ABSENT H3 and to H1; E7 in each state for Mend. -/
theorem witness_GrantRevokeAndMend :
    let s := fun code payload grant => asking (shared grant 0 1) .h0 (req code payload);
    (asks (s 0x1A [7, 0] .none) .h0 (req 0x1A [7, 0]) = true ∧ asks (s 0x1A [7, 3] .none) .h0 (req 0x1A [7, 3]) = true ∧
      (s 0x1A [7, 3] .none).sessionState .h3 ≠ .joined ∧ asks (s 0x1A [7, 1] .none) .h0 (req 0x1A [7, 1]) = true ∧
      (s 0x1A [7, 1] .none).sessionState .h1 = .joined ∧ [byteOf 7, encodePort .h1] = [7, 1]) ∧
    (asks (s 0x1B [7, 0] .granted) .h0 (req 0x1B [7, 0]) = true ∧
      asks (s 0x1B [7, 1] .none) .h0 (req 0x1B [7, 1]) = true ∧
      asks (s 0x1B [7, 1] .granted) .h0 (req 0x1B [7, 1]) = true ∧
      ((s 0x1B [7, 1] .granted).extent 7).map (fun e => (e.owner, e.grants.h1)) = some (some .h0, .granted) ∧
      ((s 0x1B [7, 1] .granted).transfer.get .h1).job = none) ∧
    ([ExtentState.clearing, .ready, .damaged].all fun state =>
      let t := (h0Asks 0x1C [7]).setExtent 7 (some { extentOf .h0 100 64 with state });
      asks t .h0 (req 0x1C [7]) && decide (t.sessionState .h0 = .joined)) = true := by decide +kernel

/-- E7 of 64 rows: offsets 32,767 and 32,768; a free handle; an extent not granted. -/
theorem witness_SeekSetsTheCursor :
    let s := fun p h offset => asking (shared .none 0 0) p (req 0x20 (byteOf h :: encode24 offset));
    asksFor (s .h0 7 32767) .h0 (req 0x20 (byteOf 7 :: encode24 32767)) 0x20 4 = true ∧
      asksFor (s .h0 7 32768) .h0 (req 0x20 (byteOf 7 :: encode24 32768)) 0x20 4 = true ∧
      asksFor (s .h0 31 2097151) .h0 (req 0x20 (byteOf 31 :: encode24 2097151)) 0x20 4 = true ∧
      asksFor (s .h1 7 0) .h1 (req 0x20 (byteOf 7 :: encode24 0)) 0x20 4 = true ∧ (s .h0 31 0).extent 31 = none ∧
      ((s .h0 7 0).extent 7).map (fun e => (e.owner, e.rows, e.grants.h1)) = some (some .h0, 64, .none) := by
  decide +kernel

/-- H0 with its cursor in E20 of four rows. -/
def writing (state : ExtentState) (offset : Nat) (code : Byte) (payload : List Byte) : State :=
  ((h0Asks code payload).setExtent 20 (some { extentOf .h0 0 4 with state })).setTransfer .h0
    { resetTransfer with cursor := some ⟨20, offset⟩ }

/-- Writes of 1 and 64 bytes that end at the last byte, and past it, and into a CLEARING extent; Updates likewise. -/
theorem witness_WriteAndUpdatePresentTheirAccesses :
    let long := List.replicate 64 (9 : Byte);
    (asks (writing .ready 1984 0x21 long) .h0 (req 0x21 long) = true ∧ 1984 + 64 ≤ 4 * 512 ∧
      asks (writing .ready 1985 0x21 long) .h0 (req 0x21 long) = true ∧ 4 * 512 < 1985 + 64 ∧
      asks (writing .damaged 2047 0x21 [9]) .h0 (req 0x21 [9]) = true ∧
      asks (writing .clearing 0 0x21 [9]) .h0 (req 0x21 [9]) = true ∧
      (writing .ready 0 0x21 [9]).sessionState .h0 = .joined ∧
      ((writing .ready 0 0x21 [9]).extent 20).map (fun e => (e.owner, e.rows)) = some (some .h0, 4)) ∧
    (let up := (0 : Byte) :: encode32 (0xFFFFFFFE : Word).toNat;
      asks (writing .ready 2044 0x23 up) .h0 (req 0x23 up) = true ∧ 2044 % 4 = 0 ∧ 2044 + 4 ≤ 4 * 512 ∧
        asks (writing .ready 2045 0x23 up) .h0 (req 0x23 up) = true ∧ 2045 % 4 ≠ 0 ∧
        asks (writing .clearing 0 0x23 up) .h0 (req 0x23 up) = true) := by decide +kernel

/-- Reads of 1 and 64 bytes; past the end; from a VALID and a FETCHING buffer; from buffers that lack the first or the
last byte. -/
theorem witness_ReadTakesTheBufferOrTheBanks :
    let s := fun offset n => writing .ready offset 0x22 [byteOf n];
    let with_ := fun buffer => (s 100 64).setTransfer .h0 { cursor := some ⟨20, 100⟩, buffer, job := none };
    asksFor (s 2047 1) .h0 (req 0x22 [byteOf 1]) 0x22 1 = true ∧ 2047 + 1 ≤ 4 * 512 ∧
      asksFor (s 1985 64) .h0 (req 0x22 [byteOf 64]) 0x22 1 = true ∧ 4 * 512 < 1985 + 64 ∧
      ((s 100 64).transfer.get .h0).buffer = .empty ∧
      asksFor (with_ (.valid 20 100 (List.replicate 64 0))) .h0 (req 0x22 [byteOf 64]) 0x22 1 = true ∧
      100 + 64 ≤ 100 + (List.replicate 64 (0 : Byte)).length ∧
      asksFor (with_ (.fetching 20 100 64 [])) .h0 (req 0x22 [byteOf 64]) 0x22 1 = true ∧
      asksFor (with_ (.valid 20 101 (List.replicate 64 0))) .h0 (req 0x22 [byteOf 64]) 0x22 1 = true ∧
      ¬(101 ≤ 100 ∧ 100 + 64 ≤ 101 + (List.replicate 64 (0 : Byte)).length) ∧
      asksFor (with_ (.fetching 20 100 63 [])) .h0 (req 0x22 [byteOf 64]) 0x22 1 = true ∧
      ¬(100 ≤ 100 ∧ 100 + 64 ≤ 100 + 63) := by decide +kernel

/-- A claim of 16 aligned blocks and of 1; past the quota; no space; a release that is another's, in use, and free. -/
theorem witness_PaletteBlocksAreClaimedAndReleased :
    (asksFor (h0Asks 0x28 [16, 16]) .h0 (req 0x28 [16, 16]) 0x28 2 = true ∧
      blocksOwned State.reset .h0 + 16 ≤ (State.reset.quotas .h0).blocks ∧
      asksFor (h0Asks 0x28 [17, 1]) .h0 (req 0x28 [17, 1]) 0x28 2 = true ∧
      (State.reset.quotas .h0).blocks < blocksOwned State.reset .h0 + 17 ∧
      [byteOf 16, byteOf 16] = [16, 16] ∧ (State.reset.block 0).owner = none) ∧
    (let s := owning (h0Asks 0x28 [1, 1]) .h1 0 64;
      asksFor s .h0 (req 0x28 [1, 1]) 0x28 2 = true ∧ (∀ b : Fin 64, (s.block b).owner ≠ none)) ∧
    (let s := owning (h0Asks 0x29 [63, 1]) .h0 63 1;
      asksFor s .h0 (req 0x29 [63, 1]) 0x29 2 = true ∧ (s.block 63).owner = some .h0 ∧
        asksFor (h0Asks 0x29 [63, 1]) .h0 (req 0x29 [63, 1]) 0x29 2 = true ∧
        ((h0Asks 0x29 [63, 1]).block 63).owner ≠ some .h0 ∧
        asksFor (s.setSlot 0 (.held .owned .h0 { layer .index4 0 1 1 with paletteBase := some 63 })) .h0
          (req 0x29 [63, 1]) 0x29 2 = true) := by decide +kernel

/-- Sixteen colours from entry 0; two from entry 15; a block of another. -/
theorem witness_PaletteWriteChangesTheShadow :
    let one := (63 : Byte) :: 15 :: [(0xFFB000 : Color)].flatMap encodeColor;
    let two := (63 : Byte) :: 15 :: (List.replicate 2 (0xFFB000 : Color)).flatMap encodeColor;
    let all_ := (63 : Byte) :: 0 :: (List.replicate 16 (0xFFB000 : Color)).flatMap encodeColor;
    let s := fun payload => owning (h0Asks 0x2A payload) .h0 63 1;
    asks (s one) .h0 (req 0x2A one) = true ∧ asks (s all_) .h0 (req 0x2A all_) = true ∧
      asks (s two) .h0 (req 0x2A two) = true ∧ 16 < 15 + 2 ∧ (s one).sessionState .h0 = .joined ∧
      ((s one).block 63).owner = some .h0 ∧ asks (h0Asks 0x2A one) .h0 (req 0x2A one) = true ∧
      ((h0Asks 0x2A one).block 63).owner ≠ some .h0 := by decide +kernel

/-- A Stage with no byte, and with the kinds 0, 12 and 255, which no row lists. -/
theorem witness_RequestsAreRefusedInOrder_unlisted :
    asks (h0Asks 0x0B []) .h0 (req 0x0B []) = true ∧ permittedLength 0x0B 0 = false ∧
      ([0, 12, 255] : List Byte).all (fun b => asks (h0Asks 0x0B [b, 0]) .h0 (req 0x0B [b, 0]) &&
        decide (b.toNat = 0 ∨ 11 < b.toNat)) = true := by decide +kernel

/-- Each field at the first value past its range. -/
theorem witness_RecordQueriesAnswer_field :
    asksFor (h0Asks 0x09 [16]) .h0 (req 0x09 [16]) 0x09 1 = true ∧
      asksFor (h0Asks 0x15 [8]) .h0 (req 0x15 [8]) 0x15 1 = true ∧
      asksFor (h0Asks 0x1D [32]) .h0 (req 0x1D [32]) 0x1D 1 = true ∧
      ([[64, 0, 0, 1], [0, 2, 0, 1], [0, 0, 0, 0], [0, 0, 16, 1], [0, 0, 15, 2]] : List (List Byte)).all (fun l =>
        asksFor (h0Asks 0x2B l) .h0 (req 0x2B l) 0x2B 4) = true := by decide +kernel

/-- Kinds 0 and 12, from a batch that is not CLOSED and from one that is. -/
theorem witness_StageAppendsTheEdit_unlisted :
    ([0, 12] : List Byte).all (fun b =>
      asks (staging .opened 1 [b, 0]) .h0 (req 0x0B [b, 0]) && asks (staging .closed 1 [b, 0]) .h0 (req 0x0B [b, 0]) &&
        permittedLength 0x0B 2 && decide (decodeEdit [b, 0] = none) && decide (b.toNat = 0 ∨ 11 < b.toNat)) = true ∧
      lastFrame (after (.showLayer .h0) (staging .opened 1 [12, 0])) .h0 = some (.response 0x11 .field []) := by
  decide +kernel

/-- Slot 16; x one below its range; y one above. -/
theorem witness_MoveNowMovesTheLayer_field :
    let p := fun (slot : Byte) (x y : Int) => slot :: (encodeSigned x ++ encodeSigned y);
    [p 16 0 0, p 0 (-4097) 0, p 0 0 4096].all (fun l => asksFor (h0Asks 0x0E l) .h0 (req 0x0E l) 0x0E 5) = true ∧
      positionInRange (-4097) = false ∧ positionInRange 4096 = false := by decide +kernel

/-- Settings out of range, and a rectangle one column past the area, for an IDLE and a HALTED window. -/
theorem witness_WindowsAreDefinedAndChanged_field :
    let past := box 705 448 96 32 .oneShot 1 .results;
    let s := fun l state => (h0Asks 0x11 l).setWindow 0 (some (win state past));
    [0 :: List.replicate 13 0, 0 :: encodeSettings past].all (fun l => [WinState.idle, .halted].all fun state =>
      asksFor (s l state) .h0 (req 0x11 l) 0x11 14) = true ∧
      decodeSettings (0 :: List.replicate 13 0) 1 = none ∧ decodeSettings (0 :: encodeSettings past) 1 = some past ∧
      ¬(past.x + past.w ≤ 800) := by decide +kernel

/-- No free handle; a free handle beside an extent of every row. -/
theorem witness_AllocExtentIsFirstFit_full :
    let s := asking (joining [.h0]) .h0 (req 0x18 [0, 1]);
    let full := { s with extents := { s.extents with
      records := tabulate fun h => some { extentOf .h1 h.val 1 with owner := none } } };
    let taken := s.setExtent 31 (some { extentOf .h1 0 4096 with owner := none });
    (asksFor full .h0 (req 0x18 [0, 1]) 0x18 2 = true ∧ extentsInv full = true ∧
      extentsOwned full .h0 < (full.quotas .h0).extents ∧ rowsOwned full .h0 + 1 ≤ (full.quotas .h0).rows ∧
      (List.finRange 32).all (fun h => (full.extent h).isSome) = true) ∧
    (asksFor taken .h0 (req 0x18 [0, 1]) 0x18 2 = true ∧ extentsInv taken = true ∧
      extentsOwned taken .h0 < (taken.quotas .h0).extents ∧ rowsOwned taken .h0 + 1 ≤ (taken.quotas .h0).rows ∧
      taken.extent 0 = none ∧ takenRuns taken = [(0, 4096)]) := by decide +kernel

/-- H1 reads E7 of H0, its access in flight at B0, while H0 makes a request. -/
def readingE7 (grant : GrantState) (code : Byte) (payload : List Byte) : State :=
  let s := asking (asking (shared grant 0 0) .h1 (req 0x22 [8])) .h0 (req code payload)
  let s := s.setPort .h1 { s.ports.h1 with executing := true }
  (s.setTransfer .h1
    { cursor := some ⟨7, 0⟩, buffer := .empty,
      job := some { kind := .read 8, handle := 7, offset := 0, damage := false, detached := false,
                    parts := [{ row := 100, kind := .read 0 8, status := .granted }] } }).setBank .b0
    { resetBank with inFlight := some { requester := .transfer .h1, row := 100, kind := .read 0 8, wanted := true } }

/-- A Free answers H1's Read NO_OBJECT, and its access is no longer wanted. -/
theorem witness_FreeExtentFreesTheHandle_read :
    let s := readingE7 .granted 0x19 [7];
    let t := after (.freeExtent .h0) s;
    asksFor s .h0 (req 0x19 [7]) 0x19 1 = true ∧ readInProgress s .h1 7 = true ∧
      (s.ports.get .h1).requests.head? = some (req 0x22 [8]) ∧
      t.ports.h1.outbound = [.event (.grantEnded 7 .h0) 1, .response 0x11 .noObject []] ∧
      (t.banks.b0.inFlight.map Access.wanted) = some false := by decide +kernel

/-- A Revoke answers H1's Read NOT_GRANTED. -/
theorem witness_GrantRevokeAndMend_read :
    let s := readingE7 .granted 0x1B [7, 1];
    let t := after (.revoke .h0) s;
    asks s .h0 (req 0x1B [7, 1]) = true ∧ readInProgress s .h1 7 = true ∧
      (s.extent 7).map (fun e => (e.grants.h1, e.counts.h1)) = some (.granted, 0) ∧
      t.ports.h1.outbound = [.event (.grantEnded 7 .h0) 1, .response 0x11 .notGranted []] ∧
      t.transfer.h1.cursor = none ∧ t.transfer.h1.job = none := by decide +kernel

/-- Handle 32; port 4; a handle that names no extent; an extent of another port, in each of the four requests. -/
theorem witness_GrantRevokeAndMend_refusals :
    let own := (shared .none 0 0).setExtent 11 (some (extentOf .h1 200 64));
    let ask := fun code payload => asks (asking own .h0 (req code payload)) .h0 (req code payload) &&
      permittedLength code payload.length;
    ([0x19, 0x1C] : List Byte).all (fun code => [32, 31, 11].all fun h => ask code [h]) = true ∧
      ([0x1A, 0x1B] : List Byte).all (fun code =>
        [[32, 1], [7, 4], [31, 1], [11, 1]].all fun payload => ask code payload) = true ∧
      own.sessionState .h0 = .joined ∧ own.extent 31 = none ∧
      (own.extent 11).map Extent.owner = some (some .h1) := by decide +kernel

/-- Handle 32; offset 2,097,152. -/
theorem witness_SeekSetsTheCursor_field :
    asksFor (h0Asks 0x20 (32 :: encode24 0)) .h0 (req 0x20 (32 :: encode24 0)) 0x20 4 = true ∧
      asksFor (h0Asks 0x20 (31 :: encode24 2097152)) .h0 (req 0x20 (31 :: encode24 2097152)) 0x20 4 = true := by
  decide +kernel

/-- No cursor; an extent of another port; operation 3; an Update at the end of the extent. -/
theorem witness_WriteAndUpdatePresentTheirAccesses_refused :
    let up := fun v : Byte => v :: encode32 (1 : Word).toNat;
    let foreign := fun code payload => (writing .ready 0 code payload).setExtent 20 (some (extentOf .h1 0 4));
    asks (h0Asks 0x21 [9]) .h0 (req 0x21 [9]) = true ∧ ((h0Asks 0x21 [9]).transfer.get .h0).cursor = none ∧
      asks (h0Asks 0x23 (up 2)) .h0 (req 0x23 (up 2)) = true ∧
      asks (foreign 0x21 [9]) .h0 (req 0x21 [9]) = true ∧ asks (foreign 0x23 (up 1)) .h0 (req 0x23 (up 1)) = true ∧
      ((foreign 0x21 [9]).extent 20).map Extent.owner = some (some .h1) ∧
      asks (h0Asks 0x23 (up 3)) .h0 (req 0x23 (up 3)) = true ∧
      (asks (writing .ready 2048 0x23 (up 0)) .h0 (req 0x23 (up 0)) = true ∧ 2048 % 4 = 0 ∧ 4 * 512 < 2048 + 4) := by
  decide +kernel

/-- Byte counts 0 and 65; no cursor; an extent that is not granted. -/
theorem witness_ReadTakesTheBufferOrTheBanks_refused :
    asksFor (h0Asks 0x22 [0]) .h0 (req 0x22 [0]) 0x22 1 = true ∧
      asksFor (h0Asks 0x22 [65]) .h0 (req 0x22 [65]) 0x22 1 = true ∧
      asksFor (h0Asks 0x22 [64]) .h0 (req 0x22 [64]) 0x22 1 = true ∧
      ((h0Asks 0x22 [64]).transfer.get .h0).cursor = none ∧
      (let s := (writing .ready 0 0x22 [1]).setExtent 20 (some (extentOf .h1 0 4));
        asksFor s .h0 (req 0x22 [1]) 0x22 1 = true ∧
          (s.extent 20).map (fun e => (e.owner, e.grants.h0)) = some (some .h1, .none)) := by decide +kernel

/-- Counts 0 and 65, alignment 2; a range that runs past P63; block 64 and entry 16 of a write. -/
theorem witness_PaletteRequestsOutOfRange :
    ([[0, 1], [65, 1], [1, 2]] : List (List Byte)).all (fun l => asksFor (h0Asks 0x28 l) .h0 (req 0x28 l) 0x28 2) =
        true ∧
      ([[64, 1], [0, 0], [63, 2]] : List (List Byte)).all (fun l => asksFor (h0Asks 0x29 l) .h0 (req 0x29 l) 0x29 2) =
        true ∧
      ([[64, 0, 1, 2, 3], [0, 16, 1, 2, 3]] : List (List Byte)).all (fun l =>
        asks (h0Asks 0x2A l) .h0 (req 0x2A l) && permittedLength 0x2A l.length) = true := by decide +kernel

/-- The READY E4 loses a row while H3 reads it, first by accesses of its own, then waiting for a fetch in flight. -/
theorem witness_TickTakesTheDueRow_notice :
    let job := fun kind parts => some (Job.mk kind 4 0 parts false false);
    let t0 : Part := { row := 1200, kind := .read 0 64, status := .granted };
    let s := (starvedBank.setTransfer .h3 { cursor := some ⟨4, 0⟩, buffer := .empty, job := job (.read 64) [t0] });
    let w := (starvedBank.setTransfer .h3
      { cursor := some ⟨4, 0⟩, buffer := .fetching 4 0 64 [t0], job := job (.readBuffered 8) [] }).setBank .b0
        { resetBank with inFlight := some { requester := .transfer .h3, row := 1200, kind := t0.kind, wanted := true } };
    ready s = true ∧ ready w = true ∧ extentsInv w = true ∧ fetchesFrom w .h3 4 = true ∧
      ((after (.tick .b2) s).transfer.h3.job.map Job.damage) = some true ∧
      (after (.tick .b2) w).transfer.h3.buffer = .empty ∧
      ((after (.tick .b2) w).transfer.h3.job.map fun j => (j.kind, j.damage)) = some (.read 8, true) ∧
      ((after (.tick .b2) w).banks.b0.inFlight.map Access.wanted) = some false := by decide +kernel

/-- A layer at (-20, 470) with a clip: line 479 has the columns 10 to 79, line 480 of a taller panel none. -/
def clipped : Descriptor :=
  { layer .index4 3 100 10 with x := -20, y := 470, clip := some ⟨10, 475, 90, 600⟩ }

/-- Columns at both ends of the drawn ones; in fallback; each format, with and without its key; a line of no column. -/
theorem witness_PixelsAreComposedInDepthOrder :
    (layerSpan clipped 800 479).map (fun k => (k.row, k.left, k.first, k.last)) = some (9, -20, 10, 79) ∧
    layerSpan clipped 800 480 = none ∧ layerSpan clipped 800 474 = none ∧
    (let y := l7 false;
      y.span.first ≤ 0 ∧ 0 ≤ y.span.last ∧ ¬(y.span.first ≤ 1 ∧ 1 ≤ y.span.last) ∧ (l7 true).fallback = true ∧
        y.desc.format = .index4 ∧ y.desc.paletteBase = some 20 ∧
        pixelValue .index4 y.bytes (firstLineByte y.desc y.span) (y.span.column 0) = 5 ∧ 16 * 20 + 5 = 16 * 20 + 5) ∧
    l2.desc.format = .fill ∧ l9.desc.format = .marker2 ∧
    (let y := l12 (some 0xF81F);
      y.desc.format = .direct16 ∧ y.desc.key = some 0xF81F ∧
        pixelValue .direct16 y.bytes (firstLineByte y.desc y.span) (y.span.column 0) = 0xF81F) ∧
    ((byDepth [l7 false, l2, l12 none, l9]).map fun y => y.desc.z.val) = [3, 18, 20, 35] ∧
    [pixelValue .index4 [0x5A] 7 14, pixelValue .index4 [0x5A] 7 15, pixelValue .marker2 [0x1B] 0 2] = [5, 10, 2] := by
  decide +kernel

/-- Blank line 18; active line 119 with every access of the fetch completed and with a late one, and line 478; the
fetch of L7. -/
theorem witness_LinesAreFetchedAndComposed :
    let blank := atLine wide .blank 18;
    let fetch := (fetchPoint 800 120 (Vector.replicate 16 false) wide).scan.fetch.map fun f =>
      { f with part := { f.part with status := .done [] } };
    let active := fun line => atLine { wide with scan := { wide.scan with fetch } } .active line;
    (ready blank = true ∧ blank.scan.phase = .blank ∧ blank.scan.lineNo + 1 < blank.scan.timing.vblank) ∧
    (ready (active 119) = true ∧ (active 119).scan.phase = .active ∧
      (active 119).scan.lineNo + 1 < (active 119).scan.timing.height ∧ (active 119).scan.fetch.length = 3 ∧
      (active 119).scan.fetch.all (fun f => f.part.finished) = true) ∧
    (active 478).scan.lineNo + 1 + 1 = (active 478).scan.timing.height ∧
    late (active 119).scan.fetch 7 = false ∧ late starved.scan.fetch 7 = true ∧
    (starved.scan.records[(7 : Fin 16)].bind LineRecord.span).isSome = true ∧
    ((wide.slot 7).live?.map fun d => (decide (d.format = .fill), d.source)) = some (false, some ⟨4, 0, 800⟩) ∧
    (wide.extent 4).map Extent.firstRow = some 1000 := by decide +kernel

/-- Line start 120 with L7 late and no other slot. -/
theorem witness_UnderrunIsReportedAndTaints :
    ready starved = true ∧ starved.scan.phase = .active ∧ starved.scan.lineNo + 1 < starved.scan.timing.height ∧
      (starved.slot 7).ownedBy .h1 = true ∧
      (starved.scan.records[(7 : Fin 16)].bind LineRecord.span).isSome = true ∧
      late starved.scan.fetch 7 = true ∧ late starved.scan.fetch 6 = false ∧
      starved.scan.underruns[(7 : Fin 16)] = false ∧ (starved.session.records.get .h1).takesEvents = true := by
  decide +kernel

/-- Blank line 19: no fetch, windows in each state, a lease of 3 and a vote; and a fetch with nothing completed, of an
extent that is READY and of one that is DAMAGED. -/
theorem witness_FrameStartBeginsTheFrame :
    let s := ((atLine voting .blank 19).setWindow 0 (some (oneShot .armed))).setWindow 1 (some (oneShot .idle));
    let s := s.setSession .h1 { joined .live with lease := 3, counter := 3 };
    ready s = true ∧ s.scan.phase = .blank ∧ s.scan.lineNo + 1 = s.scan.timing.vblank ∧ s.scan.fetch = [] ∧
      (s.window 0).map Window.state = some .armed ∧ (s.window 1).map Window.state = some .idle ∧
      (let fetched := fun state => after .lineZeroFetch
          (atLine (wide.setExtent 4 (some { extentOf .h1 1000 500 with state })) .blank 18);
        ([ExtentState.ready, .damaged].all fun state =>
          ready (fetched state) && decide ((fetched state).scan.phase = .blank) &&
            decide ((fetched state).scan.lineNo + 1 = 20) && late (fetched state).scan.fetch 7) = true ∧
        ((after .frameStart (fetched .ready)).scan.marks[(7 : Fin 16)],
          (after .frameStart (fetched .ready)).scan.underruns[(7 : Fin 16)]) = (false, true) ∧
        ((after .frameStart (fetched .damaged)).scan.marks[(7 : Fin 16)],
          (after .frameStart (fetched .damaged)).scan.underruns[(7 : Fin 16)]) = (true, false) ∧
        lastFrame (after .frameStart (fetched .ready)) .h1 = some (.event (.underrun 7 1) 1)) := by decide +kernel

/-- An active pixel of a LIT frame; SEL_n high and low, with a transaction. -/
theorem witness_PinsFollowTheState :
    let s := atLine State.reset .active 0;
    let lit := { s with scan := { s.scan with output := .lit, line := [0xFFB000] } };
    lit.resetN = true ∧ lit.scan.phase = .active ∧ lit.scan.pixelTime < lit.scan.timing.width ∧
      lit.scan.output = .lit ∧ lit.scan.line[lit.scan.pixelTime]? = some 0xFFB000 ∧
      (burst.ports.get .h2).selHigh = true ∧
      (let t := after (.transactionStart .h2) burst;
        (t.ports.get .h2).selHigh = false ∧ (t.ports.get .h2).transaction.isSome = true) := by decide +kernel

/-- L0 of the example of two ports, with one change for each check, in their order, and with none; its batches, of
which H1's fails at L6 with edit 2; a batch that publishes a block of another port twice. -/
theorem witness_FitChecksOfASlot :
    let live := { layer .index4 2 100 40 with source := some ⟨2, 0, 50⟩, paletteBase := some 3 };
    let answer := fun d => slotFailure twoPorts .h0 [] 0 live d;
    [{ live with z := 5 }, { live with z := 16 }, { live with paletteBase := none }, { live with source := some ⟨31, 0, 50⟩ },
      { live with source := some ⟨9, 0, 50⟩ }, { live with source := some ⟨2, 18481, 50⟩ }, { live with paletteBase := some 4 },
      live, { live with source := some ⟨2, 18480, 50⟩ }].map answer =
      [some .depthClash, some .outOfBand, some .format, some .sourceGone, some .notGranted, some .sourceRange,
        some .palette, none, none] ∧
      (let edits := twoPorts.commit.batches.h1.edits;
        edits = [.setSource 6 (some ⟨2, 4096, 8⟩)] ++ .showSlot 6 :: [.move 5 710 400] ∧
          batchFailure twoPorts .h1 edits = some { item := .slot 6, editIndex := 2, reason := .notGranted } ∧
          (twoPorts.slot 5).ownedBy .h1 = true ∧ (twoPorts.slot 6).ownedBy .h1 = true) ∧
      batchFailure twoPorts .h0 twoPorts.commit.batches.h0.edits = none ∧
      (twoPorts.block 63).owner ≠ some .h0 ∧
      batchFailure twoPorts .h0 [.publish 63, .publish 3, .publish 63, .publish 3] =
        some { item := .block 63, editIndex := 3, reason := .palette } := by decide +kernel

/-- H0's and H1's batches are due, H2's target is not; L9 is no one's. -/
theorem witness_BlankStartTakesDueBatches :
    ready twoPorts = true ∧ twoPorts.scan.phase = .active ∧
      twoPorts.scan.lineNo + 1 = twoPorts.scan.timing.height ∧
      [twoPorts.commit.batches.h0, twoPorts.commit.batches.h1, twoPorts.commit.batches.h2].map
        (fun k => decide (k.state = .closed) && targetReached (twoPorts.scan.frameCounter + 1) k.target) =
        [true, true, false] ∧
      batchFailure twoPorts .h0 twoPorts.commit.batches.h0.edits = none ∧
      batchFailure twoPorts .h1 twoPorts.commit.batches.h1.edits ≠ none := by decide +kernel

/-- H1 is DRAINING with a RETIRING slot and a palette block, while a plan is being adopted. -/
def draining : State :=
  let s := atLine (joining [.h0, .h2]) .active 479
  let s := s.setSession .h1 { joined .live with state := .draining, cause := some .leave }
  let s := owning (s.setSlot 4 (.held .retiring .h1 (layer .fill 16 4 4))) .h1 60 1
  s.setPlanState (.adopting (proposalD1 ⟨true, true, true, false⟩))

/-- A plan that fits is adopted; H0's depth 28 lies outside its band in the proposed plan, and 1,025 rows pass its
quota. -/
theorem witness_BlankStartEndsTeardownsAndAdopts :
    ready draining = true ∧ draining.scan.phase = .active ∧
      draining.scan.lineNo + 1 = draining.scan.timing.height ∧ draining.sessionState .h1 = .draining ∧
      draining.slot 4 = .held .retiring .h1 (layer .fill 16 4 4) ∧ (draining.block 60).owner = some .h1 ∧
      draining.sessionState .h0 ≠ .draining ∧
      (after .blankStart draining).session.plan = planD1 ∧
      (after .blankStart draining).session.records.h1 = absentSession ∧
      (blankAct (draining.setSlot 5 (.held .owned .h0 (defaultDescriptor 28)))).sent .plan =
        [.event .h0 (.planFailed .geometry .h0), .event .h2 (.planFailed .geometry .h0)] ∧
      (blankAct (draining.setExtent 0 (some (extentOf .h0 0 1025)))).sent .plan =
        [.event .h0 (.planFailed .overQuota .h0), .event .h2 (.planFailed .overQuota .h0)] := by decide +kernel

/-- H1's batch takes L4, its last slot drawn from E7, to E11: of H0's E7 the WITHDRAWING grant ends, and the orphan E7
is freed. -/
theorem witness_BlankStartEndsTeardownsAndAdopts_grants :
    let s := fun (owner : Option PortId) =>
      let s := (shared .withdrawing 0 1).setExtent 7 (some
        { extentOf .h0 100 64 with owner, grants := ⟨.none, .withdrawing, .none, .none⟩, counts := ⟨0, 1, 0, 0⟩ });
      let s := (atLine s .active 479).setSlot 4
        (.held .owned .h1 { layer .direct16 16 10 10 with source := some ⟨7, 0, 400⟩ });
      s.setBatch .h1 { state := .closed, target := none, edits := [.setSource 4 (some ⟨11, 0, 400⟩)] };
    ([some .h0, none].all fun owner => ready (s owner) && decide ((s owner).scan.lineNo + 1 = 480)) = true ∧
      ((after .blankStart (s (some .h0))).extent 7).map (fun e => (e.grants.h1, e.counts.h1)) = some (.none, 0) ∧
      (after .blankStart (s none)).extent 7 = none ∧
      (blankAct (s none)).sent .extents = [.event .h1 (.grantEnded 7 .h0)] := by decide +kernel

/-- A window in each state; one that learns, one that passes, one that fails, one that is tainted; one with report
RESULTS and scope ALL that reaches its threshold. -/
theorem witness_RunningWindowsFinish :
    let w := oneShot .running;
    let s := atLine (joining [.h0]) .active 479;
    let s := (s.setWindow 0 (some { w with register := 0x3A91C4 })).setWindow 1 (some { w with expected := none });
    let s := ((s.setWindow 2 (some { w with taint := true })).setWindow 3 (some w)).setWindow 4 (some (oneShot .idle));
    ready s = true ∧ s.scan.phase = .active ∧ s.scan.lineNo + 1 = s.scan.timing.height ∧
      ([0, 1, 2, 3, 4].map fun n => ((after .blankStart s).window n).map fun x => (x.state, x.lastResult)) =
        [some (.idle, .pass), some (.idle, .learned), some (.idle, .indeterminate), some (.halted, .fail),
          some (.idle, (oneShot .idle).lastResult)] ∧
      (let v := { w with settings := { w.settings with report := .results, scope := .all } };
        (blankAct ((atLine (joining [.h0, .h2]) .active 479).setWindow 7 (some v))).sent .check =
          [.event .h0 (.checkResult 7 .fail v.register), .event .h0 (.checkFault 7 .h0 1 v.register),
            .event .h2 (.checkFault 7 .h0 1 v.register)]) := by decide +kernel

/-- The five clauses at B1: in flight; 4 rows owed; a fetch with 3 owed; refresh alone; H3, H0 and no one in turn. -/
theorem witness_GrantsFollowTheClasses :
    let owing := fun n => contended.setRefresh .b1
      { resetRefresh with owed := List.replicate n 37, request := some 37 };
    (decideGrant contended .b1).banks.b1.inFlight.isSome = true ∧ contended.banks.b1.inFlight = none ∧
      granted (owing 4) = some (.refresh, 149) ∧ granted (owing 3) = some (.scan, 161) ∧
      scanWaiting contended .b1 ≠ none ∧ scanWaiting (unscanned contended) .b1 = none ∧
      (unowed contended).refresh.b1.request = none ∧
      (allPorts.map fun p => ((transferWaiting (unowed contended) p .b1).isSome,
        (clearWaitingAt (unowed contended) p .b1).isSome)) = [(true, false), (false, false), (true, true), (false, true)] ∧
      (turnOrder .h2).takeWhile (fun q => decide (q ≠ .h3)) = [] ∧
      transferWaiting State.reset .h0 .b1 = none ∧ clearWaitingAt State.reset .h0 .b1 = none := by decide +kernel

/-- Due row 304 fresh; not fresh with 7 rows owed; not fresh with 8, in READY and CLEARING extents. -/
theorem witness_TickTakesTheDueRow :
    let k := starvedBank.refresh.b2;
    let s := fun v => starvedBank.setRefresh .b2 v;
    ready starvedBank = true ∧ (BitVec.ofNat 1024 (2 ^ 304)).getLsb 304 = true ∧
      (s { k with fresh := BitVec.ofNat 1024 (2 ^ 304) }).resetN = true ∧
      ({ k with owed := k.owed.tail }.owed.length < 8 ∧ k.due ∉ k.owed.tail) ∧
      (k.fresh.getLsb k.due = false ∧ 8 ≤ k.owed.length ∧ storeInv starvedBank = true ∧
        extentsInv starvedBank = true ∧ 1200 ≤ 4 * 304 + 2 ∧ 4 * 304 + 2 < 1200 + 64 ∧
        (starvedBank.extent 4).map (fun e => (e.state, e.owner, e.counts)) = some (.ready, some .h1, ⟨0, 0, 0, 1⟩) ∧
        (starvedBank.session.records.get .h1).takesEvents = true) ∧
      (let clearing := starvedBank.setExtent 4 (some { newExtent .h1 1200 64 with progress := 40 });
        ready clearing = true ∧ extentsInv clearing = true ∧
          ((after (.tick .b2) clearing).extent 4).map (fun e => (e.state, e.progress)) = some (.clearing, 18)) := by
  decide +kernel

/-- A refresh of the first owed row; a write of a row that is not owed. -/
theorem witness_CompletionServesRefresh :
    ready starvedBank = true ∧ (starvedBank.banks.b2.inFlight.map fun a => a.row / 4) = some 305 ∧
      (305 : Fin 1024) ∉ starvedBank.refresh.b2.owed ∧ (290 : Fin 1024) ∈ starvedBank.refresh.b2.owed ∧
      (1162 : Nat) / 4 = 290 := by decide +kernel

/-- A write at the last byte of a row, an update of its last word, and a read; a buffer of that byte and one of the
byte after it. -/
theorem witness_CompletionChangesOnlyItsBytes :
    let s := fun kind => starvedBank.setBank .b2
      { resetBank with inFlight := some { requester := .transfer .h1, row := 4094, kind, wanted := true } };
    storeInv starvedBank = true ∧ 4094 < 4096 ∧ 511 + [(7 : Byte)].length ≤ 512 ∧ 508 + 4 ≤ 512 ∧
      ([AccessKind.write 511 [7], .update 508 .xor 1, .read 0 64].all fun k =>
        ready (s k) && decide ((s k).banks.b2.inFlight.map Access.kind = some k)) = true ∧
      (let t := fun start => ((s (.write 511 [7])).setExtent 9 (some (extentOf .h1 4090 6))).setTransfer .h3
          { cursor := none, buffer := .valid 9 start [5], job := none };
        ready (t 2559) = true ∧ 2559 = 512 * (4094 - 4090) + 511 ∧
          (after (.accessCompletion .b2) (t 2559)).transfer.h3.buffer = .empty ∧
          (after (.accessCompletion .b2) (t 2560)).transfer.h3.buffer = .valid 9 2560 [5]) := by decide +kernel

/-- The last access of an Update, of a Write of 3 bytes, and of a Read of 40 bytes over two rows whose second row, or
whose first, completes last. -/
theorem witness_TransfersEndAtTheLastCompletion :
    (let s := asking (updating .or 1) .h0 (req 0x23 [1, 0, 0, 0, 1]);
      ready s = true ∧ (s.banks.b0.inFlight.map fun a => (a.requester, a.wanted)) = some (.transfer .h0, true) ∧
        (s.transfer.h0.job.map fun j => (j.kind, j.parts.map fun t => (t.status, t.row))) =
          some (.update, [(.granted, 0)]) ∧ bankOfRow 0 = .b0 ∧ s.transfer.h0.buffer = .empty ∧
        s.ports.h0.discard = false ∧ s.ports.h0.requests.head?.isSome = true) ∧
    (let first : Part := { row := 3, kind := .read 480 32, status := .done (List.replicate 32 5) };
      let last : Part := { row := 4, kind := .read 0 8, status := .granted };
      let s := fun first last (a : Access) => ((asking (updating .or 1) .h0 (req 0x22 [40])).setTransfer .h0
        { cursor := some ⟨20, 2016⟩, buffer := .empty,
          job := some { kind := .read 40, handle := 20, offset := 2016, parts := [first, last], damage := false,
                        detached := false } }).setBank (bankOfRow a.row) { resetBank with inFlight := some a };
      let access := fun (t : Part) => { requester := .transfer .h0, row := t.row, kind := t.kind, wanted := true };
      let u := s first last (access last);
      let first' : Part := { first with status := .granted };
      let last' : Part := { last with status := .done (List.replicate 8 6) };
      let v := s first' last' (access first');
      ready u = true ∧ first.finished = true ∧ bankOfRow 4 = .b0 ∧ bankOfRow 3 = .b3 ∧
        (after (.accessCompletion .b0) u).transfer.h0.cursor = some ⟨20, 2056⟩ ∧
        ready v = true ∧ last'.finished = true ∧
        (after (.accessCompletion .b3) v).transfer.h0.cursor = some ⟨20, 2056⟩ ∧
        (after (.accessCompletion .b3) v).transfer.h0.job = none ∧
        (after (.accessCompletion .b3) (s first' last (access first'))).transfer.h0.job.isSome = true) ∧
    (let t0 : Part := { row := 3, kind := .write 509 [1, 2, 3], status := .granted };
      let s := ((asking (updating .or 1) .h0 (req 0x21 [1, 2, 3])).setTransfer .h0
        { cursor := some ⟨20, 2045⟩, buffer := .empty,
          job := some { kind := .write 3, handle := 20, offset := 2045, parts := [t0], damage := false,
                        detached := false } }).setBank .b3 { resetBank with
          inFlight := some { requester := .transfer .h0, row := 3, kind := t0.kind, wanted := true } };
      ready s = true ∧ s.ports.h0.discard = false ∧
        (after (.accessCompletion .b3) s).transfer.h0.cursor = some ⟨20, 2048⟩) := by
  decide +kernel

/-- The last access of a fetch into the buffer, with no Read and with one that waits for it. -/
theorem witness_TransfersEndAtTheLastCompletion_buffer :
    let t0 : Part := { row := 0, kind := .read 256 64, status := .granted };
    let s := fun (job : Option Job) => ((asking (updating .or 1) .h0 (req 0x22 [16])).setTransfer .h0
      { cursor := some ⟨20, 256⟩, buffer := .fetching 20 256 64 [t0], job }).setBank .b0 { resetBank with
        inFlight := some { requester := .transfer .h0, row := 0, kind := .read 256 64, wanted := true } };
    let j : Job := { kind := .readBuffered 16, handle := 20, offset := 256, parts := [], damage := false,
                     detached := false };
    ready (s none) = true ∧ ready (s (some j)) = true ∧
      (after (.accessCompletion .b0) (s none)).transfer.h0.buffer.range = (256, 64) ∧
      (after (.accessCompletion .b0) (s none)).transfer.h0.buffer.handle? = some 20 ∧
      (after (.accessCompletion .b0) (s (some j))).transfer.h0.cursor = some ⟨20, 272⟩ ∧
      ((lastFrame (after (.accessCompletion .b0) (s (some j))) .h0).isSome) = true := by decide +kernel

/-- The first and the last row of a CLEARING extent of four rows. -/
theorem witness_ClearingAdvancesRowByRow :
    let s := fun progress => (((joining [.h2]).setExtent 2 (some { newExtent .h2 2400 4 with progress })).setClearList
      .h2 [2]).setBank (bankOfRow (2400 + progress)) { resetBank with
        inFlight := some { requester := .clear .h2, row := 2400 + progress, kind := .write 0 [], wanted := true } };
    ([0, 3].all fun n => ready (s n) && decide ((s n).extents.clearLists.h2 = [2]) &&
      decide (((s n).extent 2).map (fun e => (e.firstRow, e.progress, e.rows)) = some (2400, n, 4))) = true ∧
      0 + 1 < 4 ∧ 3 + 1 = 4 := by decide +kernel

/-- The outcome is a next state. -/
def answersNext : Host.Outcome State Fault Refusal → Bool
  | .next _ => true
  | .fault _ => false
  | .refused _ => false

/-- A command of each clause. -/
theorem witness_OnlySomeCommandsChangeWhatIsShown :
    answersNext (exec .lineStart State.reset) = true ∧ Instr.lineStart ≠ .blankStart ∧
      Instr.lineStart ≠ .frameStart := by decide +kernel

/-- For the seven statements named EveryStepKeeps: the state after reset with a command waiting meets every invariant,
and its step answers a next state. -/
theorem witness_EveryStepKeeps :
    let s := { State.reset with pending := [.frameStart] };
    (storeInv s && queueInv s && jobInv s && refreshInv s && batchInv s && paletteInv s && extentsInv s &&
      countsInv s && slotsInv s && timingInv s) = true := by decide +kernel

theorem witness_EveryStepKeeps_step :
    answersNext (step { State.reset with pending := [.frameStart] }) = true := by decide +kernel

/-- An event without a match is dropped while the queue's head is being clocked out. -/
theorem witness_EventsAreQueuedCoalescedOrDropped_noted :
    let c := { fullQueue with transaction := some { fixed := .head, bytes := [], shown := noFlags, since := noFlags } };
    12 ≤ c.outbound.countP Frame.isEvent ∧ c.headFixed = true ∧
      (c.outbound.tail.all fun f => match f with
        | .event d _ => !d.sameSubject (.checkResult 4 .pass 0)
        | .response _ _ _ => true) = true ∧
      ((c.takeEvent (.checkResult 4 .pass 0)).transaction.map fun x => x.since.eventsDropped) = some true := by
  decide +kernel

/-- Lease expiries of H0: with a Write in progress and the head of its queue partly clocked out; with a Read that waits
for a fetch, of an extent that H1 draws from, and of one that nobody draws from. -/
theorem witness_LeaveAndLeaseExpiryStartTheTeardown_transfers :
    let lapsed := fun (s : State) => s.setSession .h0 { joined .live with lease := 1, counter := 0 };
    let s := fun (buffer : ReadAhead) (kind : JobKind) (parts : List Part) (drawn : Nat) =>
      ((asking (lapsed (shared .granted 0 drawn)) .h0 (req 0x22 [8])).setTransfer .h0
        { cursor := some ⟨7, 0⟩, buffer,
          job := some { kind, handle := 7, offset := 0, parts, damage := false, detached := false } }).setBank .b0 { resetBank with
        inFlight := some { requester := .transfer .h0, row := 100, kind := .read 0 64, wanted := true } };
    let busy := fun (s : State) => s.setPort .h0 { s.ports.h0 with
      executing := true, outbound := [.response 1 .ok []]
      transaction := some { fixed := .head, bytes := [], shown := noFlags, since := noFlags } };
    let t0 : Part := { row := 100, kind := .write 0 [1], status := .granted };
    let t1 : Part := { row := 100, kind := .read 0 64, status := .granted };
    let write := busy (s .empty (.write 1) [t0] 0);
    let read := fun drawn => busy (s (.fetching 7 0 64 [t1]) (.readBuffered 8) [] drawn);
    let t := fun s => after (.leaseExpiry .h0) s;
    ([write, read 0, read 1].all fun s => s.resetN && s.joined .h0 && decide (s.ports.h0.requests ≠ []) &&
      decide ((s.session.records.get .h0).lease ≠ 0) && decide ((s.session.records.get .h0).counter = 0)) = true ∧
      ((t write).transfer.h0.job.map fun j => (j.kind, j.detached, j.parts)) = some (.write 1, true, [t0]) ∧
      ((t write).ports.h0.executing, (t write).ports.h0.discard, (t write).ports.h0.requests.length) = (true, true, 1) ∧
      ((t write).ports.h0.transaction.map Transaction.fixed) = some .removed ∧
      takenAtDeparture (read 1) .h0 .h0 7 = none ∧ takenAtDeparture (read 1) .h0 .h1 7 = none ∧
      ((t (read 1)).transfer.h0.job.map fun j => (j.kind, j.detached, j.parts.map Part.row)) =
        some (.read 8, true, [100]) ∧
      ((t (read 1)).banks.b0.inFlight.map Access.wanted) = some false ∧
      departureAnswer (read 0) .h0 .h0 = some (.respond .h0 .noObject []) ∧
      takenAtDeparture (read 0) .h0 .h1 7 = some .notGranted ∧ (t (read 0)).transfer.h0.job = none ∧
      (t (read 0)).ports.h0.requests = [] ∧ (t (read 0)).ports.h0.outbound = [.event .leaseExpired 1] := by
  decide +kernel

/-- A Leave of H0 while H1 reads its extent. -/
theorem witness_LeaveAndLeaseExpiryStartTheTeardown_reader :
    let s := (asking (shared .granted 0 0) .h0 (req 0x03 [])).setTransfer .h1
      { cursor := some ⟨7, 0⟩, buffer := .empty,
        job := some { kind := .read 8, handle := 7, offset := 0, damage := false, detached := false,
                      parts := [{ row := 100, kind := .read 0 8, status := .waiting }] } };
    asksFor s .h0 (req 0x03 []) 0x03 0 = true ∧
      departureAnswer s .h0 .h1 = some (.respond .h1 .notGranted []) ∧ (after (.leave .h0) s).transfer.h1.job = none ∧
      (after (.leave .h0) s).transfer.h1.cursor = none := by decide +kernel

/-- The second of three fetches completes at B1, wanted and not. -/
theorem witness_LinesAreFetchedAndComposed_bytes :
    let part := fun row status => FetchPart.mk 0 { row, kind := .read 0 3, status };
    let s := fun wanted => { contended with
      store := contended.store.writeAt 161 0 [1, 2, 3]
      scan := { contended.scan with fetch := [part 162 .granted, part 161 .granted, part 165 .granted] }
      banks := contended.banks.set .b1 { resetBank with
        inFlight := some { requester := .scan, row := 161, kind := .read 0 3, wanted } } };
    ([true, false].all fun w => ready (s w)) = true ∧ bankOfRow 162 ≠ .b1 ∧ bankOfRow 161 = .b1 ∧
      (after (.accessCompletion .b1) (s true)).scan.fetch =
        [part 162 .granted, part 161 (.done [1, 2, 3]), part 165 .granted] ∧
      (after (.accessCompletion .b1) (s false)).scan.fetch = (s false).scan.fetch := by decide +kernel

/-- The whole access granted at B1, and the part that becomes granted: the line fetch, a Read's own access, an access of
the fetch of a unit whose Write waits at another bank, and a clear write. -/
theorem witness_GrantsFollowTheClasses_accesses :
    let access := fun s => ((decideGrant s .b1).banks.get .b1).inFlight;
    let alone := (unowed contended).setClearList .h3 [];
    let turn := fun (p : PortId) (s : State) => s.setBank .b1 { s.banks.b1 with pointer := p };
    let ahead := (alone.setTransfer .h2 { resetTransfer with
      buffer := .fetching 0 0 64 [{ row := 401, kind := .read 0 64, status := .waiting }]
      job := some { kind := .write 1, handle := 0, offset := 0, damage := false, detached := false,
                    parts := [{ row := 402, kind := .write 0 [0], status := .waiting }] } }).setClearList .h2 [];
    access contended = some { requester := .scan, row := 161, kind := .read 0 8, wanted := true } ∧
      ((decideGrant contended .b1).scan.fetch.map fun f => f.part.status) = [.granted] ∧
      access (turn .h1 (alone.setClearList .h2 [])) =
        some { requester := .transfer .h2, row := 353, kind := .read 0 8, wanted := true } ∧
      ((decideGrant (turn .h1 (alone.setClearList .h2 [])) .b1).transfer.h2.job.map fun j =>
        j.parts.map Part.status) = some [.granted] ∧
      access (turn .h1 ahead) = some { requester := .transfer .h2, row := 401, kind := .read 0 64, wanted := true } ∧
      (decideGrant (turn .h1 ahead) .b1).transfer.h2.buffer.parts.map Part.status = [.granted] ∧
      access (turn .h1 alone) =
        some { requester := .clear .h2, row := 2401, kind := .write 0 (List.replicate 512 0), wanted := true } ∧
      ((alone.extent 2).map fun e => (e.firstRow, e.progress, e.rows)) = some (2401, 0, 4) ∧
      ((arbitrate (turn .h1 ahead)).banks.b2.inFlight.map Access.row) = some 402 := by decide +kernel

/-- A write of the last byte of a row while a Read of H3 waits for a fetch of that byte and the next row; a read of H3
that is no longer wanted. -/
theorem witness_CompletionChangesOnlyItsBytes_notice :
    let t0 : Part := { row := 4094, kind := .read 511 1, status := .waiting };
    let t1 : Part := { row := 4095, kind := .read 0 63, status := .granted };
    let s := fun (a : Access) => ((((joining [.h1, .h3]).setExtent 9 (some (extentOf .h1 4090 6))).setTransfer .h3
      { cursor := some ⟨9, 2559⟩, buffer := .fetching 9 2559 64 [t0, t1],
        job := some { kind := .readBuffered 1, handle := 9, offset := 2559, parts := [], damage := false,
                      detached := false } }).setBank .b2 { resetBank with inFlight := some a }).setBank .b3
      { resetBank with
        inFlight := some { requester := .transfer .h3, row := 4095, kind := t1.kind, wanted := true } };
    let write := s { requester := .transfer .h1, row := 4094, kind := .write 511 [7], wanted := true };
    let unwanted := s { requester := .transfer .h3, row := 4094, kind := .read 0 8, wanted := false };
    let t := after (.accessCompletion .b2) write;
    ready write = true ∧ ready unwanted = true ∧ storeInv write = true ∧ 2559 = 512 * (4094 - 4090) + 511 ∧
      write.transfer.h3.buffer.isFetching = true ∧ t.transfer.h3.buffer = .empty ∧
      (t.transfer.h3.job.map fun j => (j.kind, j.parts.map fun x => (x.row, x.kind))) =
        some (.read 1, [(4094, .read 511 1)]) ∧
      (t.banks.b3.inFlight.map Access.wanted) = some false ∧
      (after (.accessCompletion .b2) unwanted).transfer.h3.buffer.range = (2559, 64) := by decide +kernel

/-- A Read over two rows whose second row completes first holds the store's bytes of it. -/
theorem witness_TransfersEndAtTheLastCompletion_held :
    let t1 : Part := { row := 3, kind := .read 510 2, status := .granted };
    let t2 : Part := { row := 4, kind := .read 0 2, status := .granted };
    let s := (asking (updating .or 1) .h0 (req 0x22 [4])).setTransfer .h0
      { cursor := some ⟨20, 2046⟩, buffer := .empty,
        job := some { kind := .read 4, handle := 20, offset := 2046, parts := [t1, t2], damage := false,
                      detached := false } };
    let s := { s.setBank .b0 { resetBank with
        inFlight := some { requester := .transfer .h0, row := 4, kind := t2.kind, wanted := true } } with
      store := s.store.writeAt 4 0 [8, 9] };
    ready s = true ∧ bankOfRow 3 ≠ .b0 ∧ bankOfRow 4 = .b0 ∧ t1.finished = false ∧
      ((after (.accessCompletion .b0) s).transfer.h0.job.map fun j => j.parts.map Part.bytes) =
        some [[], [8, 9]] := by decide +kernel

end Sys2Proof.Tests
end

section
/-! SUPPORT. The lowest index of a table, and a JOINED port's request of a code with one length. -/

namespace Sys2Proof.Machine

/-- `lowest` finds the index that holds while no lower one does. -/
theorem lowest_eq_some_of {n : Nat} {q : Fin n → Bool} {i : Fin n} (hi : q i = true)
    (below : ∀ j, j < i → q j = false) : lowest q = some i := by
  unfold lowest
  rw [List.find?_eq_some_iff_getElem]
  refine ⟨hi, i.val, by simp, by simp, fun j hj => ?_⟩
  simpa using below ⟨j, by omega⟩ hj

/-- A row without an edit kind takes every request of its code. -/
theorem requestRow_takes {code : Byte} {r : Request} (h : r.code = code) : (requestRow code).takes r = true := by
  simp [RequestRow.takes, requestRow, h]

/-- A JOINED port's request of a permitted length is executed by its row's body, whose messages then settle. -/
theorem serve_asksFor {s : State} {p : PortId} {r : Request} {code : Byte} {n : Nat} (v : Service)
    (body : List Byte → State → Act) (finish : Act → State) (h : asksFor s p r code n = true)
    (hn : (lengthsOf code).contains n = true) :
    serve p (requestRow code) v body finish s = finish (body r.payload s) := by
  obtain ⟨hasks, hjoined, hcode, hlength⟩ := asksFor_iff.1 h
  rw [serve_asks _ _ _ _ hasks (requestRow_takes hcode), execute_joined v body (by rw [hlength]; exact hn) hjoined]

end Sys2Proof.Machine
end

section
/-! PROOF. Claim Layer: the slot and the depth it gives (R23, R24). -/

namespace Sys2Proof.Machine

variable {s : State} {p : PortId}

theorem freeSlot_eq {l : Fin 16} (hfree : s.slot l = .free) (below : ∀ m, m < l → s.slot m ≠ .free) :
    freeSlot s = some l :=
  lowest_eq_some_of (by simpa using hfree) fun m hm => by simpa using below m hm

theorem freeDepth_eq {z : Fin 64} (hband : inBand z.val (s.quotas p).band = true) (hfree : depthHeld s p z = false)
    (below : ∀ y, y < z → inBand y.val (s.quotas p).band = true → depthHeld s p y = true) :
    freeDepth s p = some z := by
  refine lowest_eq_some_of (by simp [hband, hfree]) fun y hy => ?_
  cases hin : inBand y.val (s.quotas p).band with
  | false => rfl
  | true => simp [below y hy hin]

/-- At the quota a claim is answered QUOTA. -/
theorem claimLayerBody_quota {payload : List Byte} (h : (s.quotas p).layers ≤ slotsOwned s p) :
    claimLayerBody p payload s = answer p .quota [] s := by
  simp [claimLayerBody, h]

/-- Under the quota a claim sets the lowest FREE slot at the lowest free depth. -/
theorem claimLayerBody_claims {payload : List Byte} {l : Fin 16} {z : Fin 64}
    (h : slotsOwned s p < (s.quotas p).layers) (hslot : freeSlot s = some l) (hdepth : freeDepth s p = some z) :
    claimLayerBody p payload s =
      answer p .ok [byteOf l.val, byteOf z.val] (s.setSlot l (.held .owned p (defaultDescriptor z))) := by
  simp [claimLayerBody, Nat.not_le.2 h, hslot, hdepth]

/-- CLAIM_LAYER of a request that is due: the body's state and answer, settled. -/
theorem exec_claimLayer {r : Request} (h : asksFor s p r 0x08 0 = true) :
    exec (.claimLayer p) s = .next (claimLayerBody p r.payload s).settle :=
  congrArg Host.Outcome.next (serve_asksFor .joinedOnly (claimLayerBody p) Act.settle h (by decide))

end Sys2Proof.Machine
end

section
open Sys2Proof Sys2Proof.Machine

/-- Settles O21: the two branches of `claimLayerBody`, with `freeSlot` and `freeDepth` found by what is lowest. -/
theorem claimLayerGivesASlot : Obligations.ClaimLayerGivesASlot := by
  intro p r s h
  have hasks : asks s p r = true := (asksFor_iff.1 h).1
  refine ⟨fun hquota => ?_, fun l z hquota hfree hlowest hband hunheld hdepths => ?_⟩
  · rw [exec_claimLayer h, claimLayerBody_quota hquota, settle_answer _ _ _ hasks rfl]
  · rw [exec_claimLayer h,
      claimLayerBody_claims hquota (freeSlot_eq hfree hlowest) (freeDepth_eq hband hunheld hdepths),
      settle_answer _ _ _ hasks (State.setSlot_ports s l _)]
    rfl

end

section
/-! SUPPORT. The drawn columns of a layer on a line (R7, R8). -/

namespace Sys2Proof.Machine

/-- The line lies in the layer's screen rectangle and clip. -/
def Descriptor.onLine (d : Descriptor) (line : Nat) : Prop :=
  d.y - d.ay ≤ (line : Int) ∧ (line : Int) < d.y - d.ay + d.height ∧
    ∀ c, d.clip = some c → c.y0 ≤ line ∧ line ≤ c.y1

/-- The column lies on the panel, in the layer's screen rectangle and in its clip. -/
def Descriptor.drawsColumn (d : Descriptor) (width px : Nat) : Prop :=
  px < width ∧ d.x - d.ax ≤ (px : Int) ∧ (px : Int) < d.x - d.ax + d.width ∧
    ∀ c, d.clip = some c → c.x0 ≤ px ∧ px ≤ c.x1

theorem clipHasLine_iff (d : Descriptor) (line : Nat) :
    clipHasLine d line = true ↔ ∀ c, d.clip = some c → c.y0 ≤ line ∧ line ≤ c.y1 := by
  unfold clipHasLine
  cases d.clip with
  | none => simp
  | some c => simp

/-- The drawn columns are those from `firstColumn` up to `endColumn`. -/
theorem drawsColumn_iff (d : Descriptor) (width px : Nat) :
    d.drawsColumn width px ↔ firstColumn d ≤ px ∧ px < endColumn d width := by
  simp only [Descriptor.drawsColumn, firstColumn, endColumn, max_le_iff, lt_min_iff, Int.lt_toNat, Int.toNat_le]
  cases d.clip with
  | none =>
    simp only [Option.elim_none, reduceCtorEq, false_implies, implies_true, and_true]
    omega
  | some c =>
    simp only [Option.elim_some, Option.some.injEq, forall_eq']
    omega

theorem exists_drawsColumn_iff (d : Descriptor) (width : Nat) :
    (∃ px, d.drawsColumn width px) ↔ firstColumn d < endColumn d width := by
  simp only [drawsColumn_iff]
  exact ⟨fun ⟨_, h⟩ => Nat.lt_of_le_of_lt h.1 h.2, fun h => ⟨_, Nat.le_refl _, h⟩⟩

/-- A layer has a span on a line exactly when the line meets it and it draws a column. -/
theorem layerSpan_eq (d : Descriptor) (width line : Nat)
    [Decidable (d.onLine line ∧ ∃ px, d.drawsColumn width px)] :
    layerSpan d width line =
      if d.onLine line ∧ ∃ px, d.drawsColumn width px then
        some { row := ((line : Int) - (d.y - d.ay)).toNat, left := d.x - d.ax, first := firstColumn d,
               last := endColumn d width - 1 }
      else none := by
  unfold layerSpan
  refine if_congr ?_ rfl rfl
  rw [exists_drawsColumn_iff, clipHasLine_iff, Descriptor.onLine, and_assoc, and_assoc]

theorem layerSpan_eq_none_iff (d : Descriptor) (width line : Nat) :
    layerSpan d width line = none ↔ ¬(d.onLine line ∧ ∃ px, d.drawsColumn width px) := by
  classical
  simp [layerSpan_eq]

/-- A span names the line of the layer, its left edge and exactly its drawn columns. -/
theorem layerSpan_spec {d : Descriptor} {width line : Nat} {k : Span} (h : layerSpan d width line = some k) :
    (k.row : Int) = line - (d.y - d.ay) ∧ k.left = d.x - d.ax ∧
      ∀ px, (k.first ≤ px ∧ px ≤ k.last) ↔ d.drawsColumn width px := by
  classical
  rw [layerSpan_eq] at h
  split at h
  · rename_i hdrawn
    obtain ⟨⟨htop, -, -⟩, hcolumn⟩ := hdrawn
    have hlt : firstColumn d < endColumn d width := (exists_drawsColumn_iff d width).1 hcolumn
    obtain rfl := Option.some.inj h
    refine ⟨Int.toNat_of_nonneg (by omega), rfl, fun px => ?_⟩
    rw [drawsColumn_iff]
    simp only
    omega
  · cases h

theorem Span.column_of_left_le {k : Span} {px : Nat} (h : k.left ≤ px) : (k.column px : Int) = px - k.left :=
  Int.toNat_of_nonneg (by omega)

/-- The statements' bits per pixel are the model's. -/
theorem pixelBits_eq (f : Format) : pixelBits f = bitsPerPixel f := by
  cases f <;> rfl

end Sys2Proof.Machine
end

section
/-! SUPPORT. Pixel values out of the line bytes (R210). -/

namespace Sys2Proof.Machine

variable (bytes : List Byte) (base c : Nat)

/-- A MARKER2 code is below 4, and its bits are two neighbouring bits of the byte, the first pixel in the top ones. -/
theorem pixelValue_marker2 :
    pixelValue .marker2 bytes base c < 4 ∧
      (pixelValue .marker2 bytes base c).testBit 1 = (bytes.getD (c / 4 - base) 0).getLsbD (7 - 2 * (c % 4)) ∧
      (pixelValue .marker2 bytes base c).testBit 0 = (bytes.getD (c / 4 - base) 0).getLsbD (6 - 2 * (c % 4)) := by
  have hmod : pixelValue .marker2 bytes base c =
      (bytes.getD (c / 4 - base) 0).toNat / 2 ^ (6 - 2 * (c % 4)) % 2 ^ 2 := rfl
  have hshift : 6 - 2 * (c % 4) + 1 = 7 - 2 * (c % 4) := by omega
  rw [hmod]
  refine ⟨Nat.mod_lt _ (by decide), ?_, ?_⟩
  · rw [Nat.testBit_mod_two_pow, Nat.testBit_div_two_pow, ← hshift, Nat.add_comm 1]
    simp [BitVec.getLsbD]
  · rw [Nat.testBit_mod_two_pow, Nat.testBit_div_two_pow]
    simp [BitVec.getLsbD]

/-- An even INDEX4 column stands in the byte's high half. -/
theorem pixelValue_index4_even (h : c % 2 = 0) :
    pixelValue .index4 bytes base c = ((bytes.getD (c / 2 - base) 0).extractLsb' 4 4).toNat := by
  have hlt := (bytes.getD (c / 2 - base) 0).isLt
  simp only [pixelValue, h, if_true, BitVec.extractLsb'_toNat, Nat.shiftRight_eq_div_pow]
  omega

/-- An odd INDEX4 column stands in the byte's low half. -/
theorem pixelValue_index4_odd (h : c % 2 = 1) :
    pixelValue .index4 bytes base c = ((bytes.getD (c / 2 - base) 0).extractLsb' 0 4).toNat := by
  simp [pixelValue, h, BitVec.extractLsb'_toNat]

/-- A DIRECT16 value is two bytes, the first one high. -/
theorem pixelValue_direct16 :
    pixelValue .direct16 bytes base c =
      (bytes.getD (2 * c - base) 0 ++ bytes.getD (2 * c + 1 - base) 0).toNat := by
  have hlt := (bytes.getD (2 * c + 1 - base) 0).isLt
  rw [BitVec.toNat_append, ← Nat.shiftLeft_add_eq_or_of_lt hlt, Nat.shiftLeft_eq, Nat.mul_comm]
  rfl

end Sys2Proof.Machine
end

section
/-! SUPPORT. What a layer yields at a pixel, and what is shown over what lies beneath (R13 to R21). -/

namespace Sys2Proof.Machine

/-- Inverting is complementing every bit. -/
@[simp] theorem Yield.invert_over (beneath : Color) : Yield.invert.over beneath = ~~~beneath :=
  BitVec.xor_allOnes
@[simp] theorem Yield.transparent_over (beneath : Color) : Yield.transparent.over beneath = beneath := rfl
@[simp] theorem Yield.solid_over (c beneath : Color) : (Yield.solid c).over beneath = c := rfl

theorem keyEquals_iff (d : Descriptor) (v : Nat) : keyEquals d v = true ↔ ∃ key, d.key = some key ∧ key.toNat = v := by
  unfold keyEquals
  cases d.key with
  | none => simp
  | some k => simp

/-- Entry 16 i + j of the palette is live entry j of block i. -/
theorem paletteEntry_block (palette : Vector PaletteBlock 64) (i : Fin 64) (j : Fin 16) :
    paletteEntry palette (16 * i.val + j.val) = palette[i].live[j] := by
  have hblock : Fin.ofNat 64 ((16 * i.val + j.val) / 16) = i := Fin.ext (by simp; omega)
  have hentry : Fin.ofNat 16 (16 * i.val + j.val) = j := Fin.ext (by simp)
  simp only [paletteEntry, hblock, hentry]

/-- The three channels of a DIRECT16 value, each filled up with its own top bits. -/
theorem expand565_toNat {v : Nat} (h : v < 65536) :
    (expand565 v).toNat =
      (v / 2048 * 8 + v / 8192) * 65536 + (v / 32 % 64 * 4 + v / 512 % 4) * 256 + (v % 32 * 8 + v / 4 % 8) := by
  have hred : v / 2048 % 32 = v / 2048 := by omega
  have hredTop : v / 2048 / 4 = v / 8192 := by omega
  have hgreen : v / 32 % 64 / 16 = v / 512 % 4 := by omega
  have hblue : v % 32 / 4 = v / 4 % 8 := by omega
  simp only [expand565, BitVec.toNat_ofNat, hred, hredTop, hgreen, hblue]
  exact Nat.mod_eq_of_lt (by omega)

/-! ### A layer over what lies beneath -/

section
variable {palette : Vector PaletteBlock 64} {y : DrawnLayer} {px : Nat}

theorem yieldAt_outside (h : ¬(y.span.first ≤ px ∧ px ≤ y.span.last)) : y.yieldAt palette px = .transparent :=
  if_pos (by omega)

theorem yieldAt_fallback (hfirst : y.span.first ≤ px) (hlast : px ≤ y.span.last) (h : y.fallback = true) :
    y.yieldAt palette px = .solid y.desc.fill := by
  simp [DrawnLayer.yieldAt, Nat.not_lt.2 hfirst, Nat.not_lt.2 hlast, h]

theorem yieldAt_drawn (hfirst : y.span.first ≤ px) (hlast : px ≤ y.span.last) (h : y.fallback = false) :
    y.yieldAt palette px = formatYield palette y.desc
      (pixelValue y.desc.format y.bytes (firstLineByte y.desc y.span) (y.span.column px)) := by
  simp [DrawnLayer.yieldAt, Nat.not_lt.2 hfirst, Nat.not_lt.2 hlast, h]

end

section
variable {palette : Vector PaletteBlock 64} {d : Descriptor} {v : Nat}

theorem formatYield_fill (h : d.format = .fill) : formatYield palette d v = .solid d.fill := by
  simp [formatYield, h]

/-- A MARKER2 pixel shows what its code's entry in the code map says. -/
theorem formatYield_marker2_over (h : d.format = .marker2) (beneath : Color) :
    (formatYield palette d v).over beneath = match d.codeMap.entry v with
      | .transparent => beneath
      | .colour1 => d.c1
      | .colour2 => d.c2
      | .colour3 => d.c3
      | .invert => ~~~beneath := by
  simp only [formatYield, h]
  cases d.codeMap.entry v with
  | transparent => rfl
  | colour1 => rfl
  | colour2 => rfl
  | colour3 => rfl
  | invert => exact Yield.invert_over beneath

/-- In the formats that have a key, the pixel equal to it is transparent. -/
theorem formatYield_keyed (hfill : d.format ≠ .fill) (hmarker : d.format ≠ .marker2) (h : keyEquals d v = true) :
    formatYield palette d v = .transparent := by
  cases hf : d.format with
  | fill => exact absurd hf hfill
  | marker2 => exact absurd hf hmarker
  | index4 => simp [formatYield, hf, h]
  | index8 => simp [formatYield, hf, h]
  | direct16 => simp [formatYield, hf, h]

theorem formatYield_indexed {base : Fin 64} (hf : d.format = .index4 ∨ d.format = .index8)
    (h : keyEquals d v = false) (hb : d.paletteBase = some base) :
    formatYield palette d v = .solid (paletteEntry palette (16 * base.val + v)) := by
  rcases hf with hf | hf
  · simp [formatYield, hf, h, hb, Nat.mul_comm]
  · simp [formatYield, hf, h, hb, Nat.mul_comm]

theorem formatYield_direct16 (hf : d.format = .direct16) (h : keyEquals d v = false) :
    formatYield palette d v = .solid (expand565 v) := by
  simp [formatYield, hf, h]

end

end Sys2Proof.Machine
end

section
/-! SUPPORT. The layers in depth order, and the pixels composed of them (R11, R19). -/

namespace Sys2Proof.Machine

/-- Composition applies the topmost layer's yield to what the layers below it show. -/
theorem composePixel_append (palette : Vector PaletteBlock 64) (background : Color) (below : List DrawnLayer)
    (y : DrawnLayer) (px : Nat) :
    composePixel palette background (below ++ [y]) px =
      (y.yieldAt palette px).over (composePixel palette background below px) := by
  simp [composePixel]

/-- The layers of the list stand in ascending z. -/
abbrev AscendingDepth (l : List DrawnLayer) : Prop := l.Pairwise fun a b => a.desc.z ≤ b.desc.z

theorem insertByDepth_perm (y : DrawnLayer) (l : List DrawnLayer) : (insertByDepth y l).Perm (y :: l) := by
  induction l with
  | nil => exact .refl _
  | cons a rest ih =>
    unfold insertByDepth
    split
    · exact .refl _
    · exact (ih.cons a).trans (.swap y a rest)

theorem insertByDepth_ascending {y : DrawnLayer} {l : List DrawnLayer} (h : AscendingDepth l) :
    AscendingDepth (insertByDepth y l) := by
  induction l with
  | nil => exact List.pairwise_singleton _ y
  | cons a rest ih =>
    obtain ⟨ha, hrest⟩ := List.pairwise_cons.1 h
    unfold insertByDepth
    split
    next hlt =>
      refine List.pairwise_cons.2 ⟨fun b hb => ?_, h⟩
      rcases List.mem_cons.1 hb with rfl | hb
      · exact hlt.le
      · exact hlt.le.trans (ha b hb)
    next hge =>
      refine List.pairwise_cons.2 ⟨fun b hb => ?_, ih hrest⟩
      rcases List.mem_cons.1 ((insertByDepth_perm y rest).mem_iff.1 hb) with rfl | hb
      · exact not_lt.1 hge
      · exact ha b hb

/-- Inserting the layers one by one into a list in ascending z keeps them all and the order. -/
theorem foldl_insertByDepth (l : List DrawnLayer) : ∀ acc : List DrawnLayer, AscendingDepth acc →
    (l.foldl (fun acc y => insertByDepth y acc) acc).Perm (l ++ acc) ∧
      AscendingDepth (l.foldl (fun acc y => insertByDepth y acc) acc) := by
  induction l with
  | nil => exact fun acc h => ⟨.refl _, h⟩
  | cons y rest ih =>
    intro acc h
    obtain ⟨hperm, hasc⟩ := ih (insertByDepth y acc) (insertByDepth_ascending h)
    exact ⟨hperm.trans (((insertByDepth_perm y acc).append_left rest).trans List.perm_middle), hasc⟩

theorem byDepth_perm (l : List DrawnLayer) : (byDepth l).Perm l := by
  simpa [byDepth] using (foldl_insertByDepth l [] .nil).1

theorem byDepth_ascending (l : List DrawnLayer) : AscendingDepth (byDepth l) :=
  (foldl_insertByDepth l [] .nil).2

section
variable (palette : Vector PaletteBlock 64) (background : Color) (layers : List DrawnLayer)

theorem composeLine_length (width : Nat) : (composeLine palette background layers width).length = width := by
  simp [composeLine]

theorem composeLine_getElem? {width px : Nat} (h : px < width) :
    (composeLine palette background layers width)[px]? = some (composePixel palette background (byDepth layers) px) := by
  simp [composeLine, h]

end

end Sys2Proof.Machine
end

section
open Sys2Proof Sys2Proof.Machine

/-- Settles O38: the geometry by the two ends of the drawn columns, a pixel by its topmost layer's yield, the order by
the insertions of `byDepth`. -/
theorem pixelsAreComposedInDepthOrder : Obligations.PixelsAreComposedInDepthOrder := by
  refine ⟨fun d width line => ⟨layerSpan_eq_none_iff d width line, fun k h => layerSpan_spec h⟩,
    fun palette background px => ⟨rfl, fun below y => ⟨fun h => ?_, fun hfirst hlast => ⟨fun h => ?_, fun h => ?_⟩⟩⟩,
    fun layers => ⟨byDepth_perm layers, byDepth_ascending layers⟩,
    fun palette background layers width => ⟨composeLine_length palette background layers width,
      fun px h => composeLine_getElem? palette background layers h⟩,
    fun bytes base c => ⟨pixelValue_marker2 bytes base c, pixelValue_index4_even bytes base c,
      pixelValue_index4_odd bytes base c, rfl, pixelValue_direct16 bytes base c⟩,
    fun d k => ⟨fun px h => Span.column_of_left_le h, by rw [pixelBits_eq]; rfl⟩⟩
  · rw [composePixel_append, yieldAt_outside h, Yield.transparent_over]
  · rw [composePixel_append, yieldAt_fallback hfirst hlast h, Yield.solid_over]
  · intro v keyed
    have hshown : composePixel palette background (below ++ [y]) px =
        (formatYield palette y.desc v).over (composePixel palette background below px) := by
      rw [composePixel_append, yieldAt_drawn hfirst hlast h]
    have hunkeyed (hk : ¬keyed) : keyEquals y.desc v = false :=
      Bool.eq_false_iff.2 fun e => hk ((keyEquals_iff y.desc v).1 e)
    simp only [hshown]
    refine ⟨fun hf => ?_, fun hf => formatYield_marker2_over hf _, fun hfill hmarker hk => ?_,
      fun hf hk base i j hbase hentry => ?_, fun hf hk hv => ?_⟩
    · rw [formatYield_fill hf, Yield.solid_over]
    · rw [formatYield_keyed hfill hmarker ((keyEquals_iff y.desc v).2 hk), Yield.transparent_over]
    · rw [formatYield_indexed hf (hunkeyed hk) hbase, Yield.solid_over, hentry, paletteEntry_block]
    · rw [formatYield_direct16 hf (hunkeyed hk), Yield.solid_over, expand565_toNat hv]

end

section
/-! PROOF. Close Batch and Abandon Batch in each state of the batch buffer (R55, R57). -/

namespace Sys2Proof.Machine

/-- A two-byte field spells the number it was written from. -/
theorem decodeNat_encode16 {n : Nat} (h : n < 65536) : decodeNat (encode16 n) = n := by
  simp only [decodeNat, encode16, byteOf, List.foldl_cons, List.foldl_nil, BitVec.toNat_ofNat]
  omega

@[simp] theorem closeTarget_nil : closeTarget [] = none := rfl

/-- A Close Batch that names a frame has it as its target. -/
@[simp] theorem closeTarget_encode16 (f : Half) : closeTarget (encode16 f.toNat) = some f := by
  have hfield : field (encode16 f.toNat) 0 2 = f.toNat := decodeNat_encode16 f.isLt
  have hnonempty : encode16 f.toNat ≠ [] := List.cons_ne_nil _ _
  rw [closeTarget, if_neg hnonempty, hfield, BitVec.ofNat_toNat, BitVec.setWidth_eq]

variable {s : State} {p : PortId} {r : Request} {payload : List Byte}

theorem closeBatchBody_empty (h : (s.commit.batches.get p).state = .empty) :
    closeBatchBody p payload s = answer p .field [] s := by
  simp [closeBatchBody, h]

theorem closeBatchBody_closed (h : (s.commit.batches.get p).state = .closed) :
    closeBatchBody p payload s = answer p .busy [] s := by
  simp [closeBatchBody, h]

theorem closeBatchBody_opened (h : (s.commit.batches.get p).state = .opened) :
    closeBatchBody p payload s =
      answer p .ok [byteOf (s.commit.batches.get p).edits.length]
        (s.setBatch p { s.commit.batches.get p with state := .closed, target := closeTarget payload }) := by
  simp [closeBatchBody, h]

theorem abandonBatchBody_empty (h : (s.commit.batches.get p).state = .empty) :
    abandonBatchBody p payload s = answer p .tooLate [] s :=
  if_pos h

theorem abandonBatchBody_discards (h : (s.commit.batches.get p).state ≠ .empty) :
    abandonBatchBody p payload s =
      answer p .ok [byteOf (s.commit.batches.get p).edits.length] (s.setBatch p emptyBatch) :=
  if_neg h

/-- CLOSE_BATCH with its field or without, of a request that is due: the body's state and answer, settled. -/
theorem exec_closeBatch (hasks : asks s p r = true) (hjoined : s.sessionState p = .joined) (hcode : r.code = 0x0C)
    (hlength : r.payload.length = 0 ∨ r.payload.length = 2) :
    exec (.closeBatch p) s = .next (closeBatchBody p r.payload s).settle := by
  have hn : asksFor s p r 0x0C r.payload.length = true := asksFor_iff.2 ⟨hasks, hjoined, hcode, rfl⟩
  have hpermitted : (lengthsOf 0x0C).contains r.payload.length = true := by
    rcases hlength with h | h <;> rw [h] <;> decide
  exact congrArg Host.Outcome.next (serve_asksFor .joinedOnly (closeBatchBody p) Act.settle hn hpermitted)

/-- ABANDON_BATCH of a request that is due: the body's state and answer, settled. -/
theorem exec_abandonBatch (h : asksFor s p r 0x0D 0 = true) :
    exec (.abandonBatch p) s = .next (abandonBatchBody p r.payload s).settle :=
  congrArg Host.Outcome.next (serve_asksFor .joinedOnly (abandonBatchBody p) Act.settle h (by decide))

/-- An OPEN batch is CLOSED with the target the request gives, and the answer counts its edits. -/
theorem exec_closeBatch_opened (hasks : asks s p r = true) (hjoined : s.sessionState p = .joined)
    (hcode : r.code = 0x0C) (hlength : r.payload.length = 0 ∨ r.payload.length = 2)
    (hopen : (s.commit.batches.get p).state = .opened) :
    exec (.closeBatch p) s = .next
      ((s.setBatch p { s.commit.batches.get p with state := .closed, target := closeTarget r.payload }).answered p
        r.tag .ok [byteOf (s.commit.batches.get p).edits.length]) := by
  rw [exec_closeBatch hasks hjoined hcode hlength, closeBatchBody_opened hopen,
    settle_answer _ _ _ hasks (State.setBatch_ports s p _)]

end Sys2Proof.Machine
end

section
open Sys2Proof Sys2Proof.Machine

/-- Settles O25: the branches of `closeBatchBody` and `abandonBatchBody`, and the target read back from its field. -/
theorem batchesAreClosedAndAbandoned : Obligations.BatchesAreClosedAndAbandoned := by
  refine ⟨fun p r s hasks hjoined hcode => ⟨fun hpayload hopen => ?_, fun f hpayload hopen => ?_,
    fun hlength => ⟨fun hempty => ?_, fun hclosed => ?_⟩⟩, fun p r s h => ⟨fun hheld => ?_, fun hempty => ?_⟩⟩
  · rw [exec_closeBatch_opened hasks hjoined hcode (.inl (by rw [hpayload]; rfl)) hopen, hpayload, closeTarget_nil]
  · rw [exec_closeBatch_opened hasks hjoined hcode (.inr (by rw [hpayload]; rfl)) hopen, hpayload,
      closeTarget_encode16]
  · rw [exec_closeBatch hasks hjoined hcode hlength, closeBatchBody_empty hempty, settle_answer _ _ _ hasks rfl]
  · rw [exec_closeBatch hasks hjoined hcode hlength, closeBatchBody_closed hclosed, settle_answer _ _ _ hasks rfl]
  · have hnonempty : (s.commit.batches.get p).state ≠ .empty := by rcases hheld with e | e <;> simp [e]
    rw [exec_abandonBatch h, abandonBatchBody_discards hnonempty,
      settle_answer _ _ _ (asksFor_iff.1 h).1 (State.setBatch_ports s p _)]
    rfl
  · rw [exec_abandonBatch h, abandonBatchBody_empty hempty, settle_answer _ _ _ (asksFor_iff.1 h).1 rfl]

end

section
/-! SUPPORT. The first index of a table that yields a value, and the number of the last edit of a kind. -/

namespace Sys2Proof.Machine

/-- What a search over all indexes finds is what the lowest index that yields anything yields. -/
theorem findSome?_finRange_eq_some {α : Type} {n : Nat} {f : Fin n → Option α} {i : Fin n} {a : α}
    (hi : f i = some a) (below : ∀ j, j < i → f j = none) : (List.finRange n).findSome? f = some a := by
  have hfirst : lowest (fun j => (f j).isSome) = some i :=
    lowest_eq_some_of (by simp [hi]) fun j hj => by simp [below j hj]
  rw [lowest] at hfirst
  rw [List.findSome?_eq_some_iff]
  obtain ⟨-, before, after, hsplit, hbefore⟩ := List.find?_eq_some_iff_append.1 hfirst
  exact ⟨before, i, after, hsplit, hi, fun j hj => by simpa using hbefore j hj⟩

theorem findSome?_finRange_eq_none {α : Type} {n : Nat} {f : Fin n → Option α} :
    (List.finRange n).findSome? f = none ↔ ∀ i, f i = none := by
  simp

/-- Edits that do not answer to the test leave the number as it is. -/
theorem foldl_zipIdx_of_none {q : Edit → Bool} {l : List Edit} (h : ∀ x ∈ l, q x = false) (k n : Nat) :
    (l.zipIdx k).foldl (fun n e => if q e.1 then e.2 + 1 else n) n = n := by
  induction l generalizing k with
  | nil => rfl
  | cons a rest ih =>
    obtain ⟨ha, hrest⟩ := List.forall_mem_cons.1 h
    simp [List.zipIdx_cons, ha, ih hrest]

/-- The number of the last edit that answers to the test counts the edits before it and itself. -/
theorem lastIndex_eq {q : Edit → Bool} {before after : List Edit} {e : Edit} (he : q e = true)
    (hafter : ∀ x ∈ after, q x = false) : lastIndex q (before ++ e :: after) = before.length + 1 := by
  simp [lastIndex, List.zipIdx_append, List.zipIdx_cons, he, foldl_zipIdx_of_none hafter]

end Sys2Proof.Machine
end

section
/-! SUPPORT. What each fit check of a touched slot asks of its projected descriptor (R60 to R64). -/

namespace Sys2Proof.Machine

variable {s : State} {p : PortId} {edits : List Edit} {l : Fin 16} {live d : Descriptor}

theorem projectedDepth_iff {z : Fin 64} :
    projectedDepth s p edits l = some z ↔ ∃ d, s.slot l = .held .owned p d ∧
      (project l d edits).retire = false ∧ (project l d edits).desc.z = z := by
  unfold projectedDepth
  cases s.slot l with
  | free => simp
  | held state q d =>
    cases state with
    | retiring => simp
    | owned =>
      by_cases hq : q = p
      · cases hretire : (project l d edits).retire <;> simp [hq, hretire]
      · simp [hq]

/-- Another slot of the port has the projected depth (R60). -/
def DepthClashes (s : State) (p : PortId) (edits : List Edit) (l : Fin 16) (d : Descriptor) : Prop :=
  ∃ m, m ≠ l ∧ projectedDepth s p edits m = some d.z

theorem depthClash_iff : depthClash s p edits l d.z = true ↔ DepthClashes s p edits l d := by
  simp [depthClash, DepthClashes]

/-- The depth lies in the port's band (R60). -/
def DepthInBand (s : State) (p : PortId) (d : Descriptor) : Prop :=
  ∃ b, (s.quotas p).band = some b ∧ b.low ≤ d.z.val ∧ d.z.val ≤ b.high

theorem inBand_iff : inBand d.z.val (s.quotas p).band = true ↔ DepthInBand s p d := by
  unfold DepthInBand
  cases (s.quotas p).band <;> simp [inBand]

/-- The descriptor has the fields its format needs, and a MARKER2 layer stays within 64 by 64 (R61). -/
def FormatAllowed (d : Descriptor) : Prop :=
  (d.format = .fill ∨ d.source ≠ none) ∧
    (d.format = .index4 → d.paletteBase ≠ none) ∧
    (d.format = .index8 → ∃ b, d.paletteBase = some b ∧ b.val % 16 = 0) ∧
    (d.format = .marker2 → d.width ≤ 64 ∧ d.height ≤ 64)

theorem formatForbids_eq_false_iff : formatForbids d = false ↔ FormatAllowed d := by
  have hsource : d.source.isNone = false ↔ d.source ≠ none := by cases d.source <;> simp
  unfold formatForbids FormatAllowed
  cases d.format with
  | fill => simp
  | marker2 => simp [hsource]
  | index4 => cases d.paletteBase <;> simp [hsource]
  | index8 => cases d.paletteBase <;> simp [hsource]
  | direct16 => simp [hsource]

/-- The source's handle names no allocated extent (R62). -/
def SourceGone (s : State) (d : Descriptor) : Prop :=
  ∃ o, d.source = some o ∧ s.extent o.handle = none

/-- The port may name the source's extent from the slot (R62). -/
def SourceGranted (s : State) (p : PortId) (live d : Descriptor) : Prop :=
  ∀ o e, d.source = some o → s.extent o.handle = some e →
    e.owner = some p ∨ e.grants.get p = .granted ∨
      (e.grants.get p = .withdrawing ∧ live.source.map Source.handle = some o.handle)

/-- The layer's lines lie within the source's extent (R63). -/
def SourceFits (s : State) (d : Descriptor) : Prop :=
  ∀ o e, d.source = some o → s.extent o.handle = some e →
    (d.format = .fill → o.offset < e.rows * 512) ∧
    (d.format ≠ .fill → (d.width * pixelBits d.format + 7) / 8 ≤ o.stride ∧
      o.offset + (d.height - 1) * o.stride + (d.width * pixelBits d.format + 7) / 8 ≤ e.rows * 512)

theorem mayName_iff {h : Fin 32} {e : Extent} {source : Option Source} :
    mayName p h e source = true ↔ e.owner = some p ∨ e.grants.get p = .granted ∨
      (e.grants.get p = .withdrawing ∧ source.map Source.handle = some h) := by
  unfold mayName
  cases e.grants.get p <;> simp

theorem outOfRange_eq_false_iff {o : Source} {e : Extent} :
    outOfRange d o e = false ↔ (d.format = .fill → o.offset < e.rows * 512) ∧
      (d.format ≠ .fill → lineBytes d ≤ o.stride ∧
        o.offset + (d.height - 1) * o.stride + lineBytes d ≤ e.rows * 512) := by
  have hsize : e.rows * 512 = e.size := rfl
  rw [hsize]
  by_cases hfill : d.format = .fill <;> simp [outOfRange, hfill]

section
variable {o : Source} {e : Extent} (ho : d.source = some o) (he : s.extent o.handle = some e)
include ho he

/-- What is asked of every source and its extent is asked of the one that the descriptor names. -/
theorem forall_source_iff {asked : Source → Extent → Prop} :
    (∀ o e, d.source = some o → s.extent o.handle = some e → asked o e) ↔ asked o e := by
  refine ⟨fun h => h o e ho he, fun h o' e' ho' he' => ?_⟩
  obtain rfl := Option.some.inj (ho.symm.trans ho')
  obtain rfl := Option.some.inj (he.symm.trans he')
  exact h

theorem not_sourceGone : ¬SourceGone s d := by
  simp [SourceGone, ho, he]

theorem sourceGranted_iff : SourceGranted s p live d ↔ mayName p o.handle e live.source = true :=
  (forall_source_iff ho he).trans mayName_iff.symm

theorem sourceFits_iff : SourceFits s d ↔ outOfRange d o e = false := by
  rw [outOfRange_eq_false_iff, lineBytes, ← pixelBits_eq]
  exact forall_source_iff ho he

end

open Classical in
/-- The source checks in their order. -/
theorem sourceFailure_eq : sourceFailure s p live d =
    if SourceGone s d then some .sourceGone
    else if ¬SourceGranted s p live d then some .notGranted
    else if ¬SourceFits s d then some .sourceRange
    else none := by
  cases ho : d.source with
  | none => simp [sourceFailure, SourceGone, SourceGranted, SourceFits, ho]
  | some o =>
    cases he : s.extent o.handle with
    | none => simp [sourceFailure, SourceGone, ho, he]
    | some e =>
      simp only [sourceFailure, ho, he, not_sourceGone ho he, sourceGranted_iff ho he, sourceFits_iff ho he,
        Bool.not_eq_true', Bool.not_eq_true, Bool.not_eq_false, if_false]

/-- The port owns every block the descriptor reads its colours from (R64). -/
def PaletteOwned (s : State) (p : PortId) (d : Descriptor) : Prop :=
  ∀ b : Fin 64, ∀ base, d.paletteBase = some base →
    (d.format = .index4 ∧ b = base ∨ d.format = .index8 ∧ base.val ≤ b.val ∧ b.val ≤ base.val + 15) →
    (s.block b).owner = some p

theorem usesBlock_iff {b : Fin 64} :
    usesBlock d b.val = true ↔ ∃ base, d.paletteBase = some base ∧
      (d.format = .index4 ∧ b = base ∨ d.format = .index8 ∧ base.val ≤ b.val ∧ b.val ≤ base.val + 15) := by
  unfold usesBlock
  cases d.paletteBase with
  | none => cases d.format <;> simp
  | some base => cases d.format <;> simp [Fin.val_inj, eq_comm (a := b)]

theorem paletteMissing_eq_false_iff : paletteMissing s p d = false ↔ PaletteOwned s p d := by
  simp [paletteMissing, PaletteOwned, PaletteBlock.ownedBy, Bool.eq_false_iff, usesBlock_iff]

open Classical in
/-- The fit checks of a touched slot in their order (R65). -/
theorem slotFailure_eq : slotFailure s p edits l live d =
    if DepthClashes s p edits l d then some .depthClash
    else if ¬DepthInBand s p d then some .outOfBand
    else if ¬FormatAllowed d then some .format
    else if SourceGone s d then some .sourceGone
    else if ¬SourceGranted s p live d then some .notGranted
    else if ¬SourceFits s d then some .sourceRange
    else if ¬PaletteOwned s p d then some .palette
    else none := by
  simp only [slotFailure, sourceFailure_eq, ← depthClash_iff, ← inBand_iff, ← formatForbids_eq_false_iff,
    ← paletteMissing_eq_false_iff, Bool.not_eq_true', Bool.not_eq_true, Bool.not_eq_false]
  split_ifs <;> rfl

/-- A slot's check answers the first reason that the projected descriptor runs into. -/
theorem slotFailure_first :
    let clash := DepthClashes s p edits l d
    let inside := DepthInBand s p d
    let format := FormatAllowed d
    let gone := SourceGone s d
    let granted := SourceGranted s p live d
    let fits := SourceFits s d
    let owned := PaletteOwned s p d
    let answer := slotFailure s p edits l live d
    (clash → answer = some .depthClash) ∧
    (¬clash → ¬inside → answer = some .outOfBand) ∧
    (¬clash → inside → ¬format → answer = some .format) ∧
    (¬clash → inside → format → gone → answer = some .sourceGone) ∧
    (¬clash → inside → format → ¬gone → ¬granted → answer = some .notGranted) ∧
    (¬clash → inside → format → ¬gone → granted → ¬fits → answer = some .sourceRange) ∧
    (¬clash → inside → format → ¬gone → granted → fits → ¬owned → answer = some .palette) ∧
    (¬clash → inside → format → ¬gone → granted → fits → owned → answer = none) := by
  simp +contextual [slotFailure_eq]

end Sys2Proof.Machine
end

section
/-! PROOF. What a batch that fails a fit check reports (R59, R65). -/

namespace Sys2Proof.Machine

variable {s : State} {p : PortId} {edits : List Edit} {l : Fin 16} {b : Fin 64} {reason : RejectReason}

/-! ### Touched slots -/

/-- A slot that the batch touches, and that does not end retired, fails a fit check for this reason. -/
def SlotFails (s : State) (p : PortId) (edits : List Edit) (l : Fin 16) (reason : RejectReason) : Prop :=
  ∃ d, s.slot l = .held .owned p d ∧ (∃ e ∈ edits, e.slot? = some l) ∧ (project l d edits).retire = false ∧
    slotFailure s p edits l d (project l d edits).desc = some reason

theorem slotRejection_eq_some_iff {r : Rejection} :
    slotRejection s p edits l = some r ↔ ∃ reason, SlotFails s p edits l reason ∧
      { item := .slot l, editIndex := lastIndex (fun e => decide (e.slot? = some l)) edits, reason } = r := by
  unfold slotRejection SlotFails
  cases hslot : s.slot l with
  | free => simp [touches, hslot, Slot.ownedBy]
  | held state q d =>
    cases state with
    | retiring => simp [touches, hslot, Slot.ownedBy]
    | owned =>
      by_cases hq : q = p
      · cases hretire : (project l d edits).retire <;>
          simp [touches, hslot, Slot.ownedBy, Slot.live?, hq, hretire, and_assoc]
      · simp [touches, hslot, Slot.ownedBy, hq]

theorem slotRejection_eq_none_iff : slotRejection s p edits l = none ↔ ∀ reason, ¬SlotFails s p edits l reason := by
  simp [Option.eq_none_iff_forall_ne_some, slotRejection_eq_some_iff]

/-! ### Published blocks -/

/-- The batch publishes a block that the port does not own (R64). -/
def PublishesForeign (s : State) (p : PortId) (edits : List Edit) (b : Fin 64) : Prop :=
  .publish b ∈ edits ∧ (s.block b).owner ≠ some p

@[simp] theorem Edit.block?_eq_some_iff {e : Edit} : e.block? = some b ↔ e = .publish b := by
  cases e <;> simp [Edit.block?]

theorem publishes_iff : publishes edits b = true ↔ .publish b ∈ edits := by
  simp [publishes]

theorem blockRejection_of_foreign (h : PublishesForeign s p edits b) : blockRejection s p edits b = some
    { item := .block b, editIndex := lastIndex (fun e => decide (e.block? = some b)) edits, reason := .palette } := by
  obtain ⟨hpublished, hforeign⟩ := h
  simp [blockRejection, publishes_iff.2 hpublished, PaletteBlock.ownedBy, hforeign]

theorem blockRejection_eq_none_iff : blockRejection s p edits b = none ↔ ¬PublishesForeign s p edits b := by
  simp [blockRejection, PublishesForeign, publishes_iff, PaletteBlock.ownedBy]

/-! ### The batch -/

theorem batchFailure_eq_none_iff : batchFailure s p edits = none ↔
    (∀ l reason, ¬SlotFails s p edits l reason) ∧ ∀ b, ¬PublishesForeign s p edits b := by
  simp only [← slotRejection_eq_none_iff, ← blockRejection_eq_none_iff, ← findSome?_finRange_eq_none]
  unfold batchFailure
  cases (List.finRange 16).findSome? (slotRejection s p edits) <;> simp

/-- The lowest slot that fails is reported. -/
theorem batchFailure_of_slot (h : SlotFails s p edits l reason)
    (below : ∀ m other, m < l → ¬SlotFails s p edits m other) : batchFailure s p edits = some
      { item := .slot l, editIndex := lastIndex (fun e => decide (e.slot? = some l)) edits, reason } := by
  have hfirst := findSome?_finRange_eq_some (slotRejection_eq_some_iff.2 ⟨reason, h, rfl⟩)
    fun m hm => slotRejection_eq_none_iff.2 fun other => below m other hm
  simp [batchFailure, hfirst]

/-- With no slot that fails, the lowest block of another's is reported. -/
theorem batchFailure_of_block (hslots : ∀ l reason, ¬SlotFails s p edits l reason)
    (h : PublishesForeign s p edits b) (below : ∀ c, c < b → ¬PublishesForeign s p edits c) :
    batchFailure s p edits = some
      { item := .block b, editIndex := lastIndex (fun e => decide (e.block? = some b)) edits,
        reason := .palette } := by
  have hpass := findSome?_finRange_eq_none.2 fun l => slotRejection_eq_none_iff.2 (hslots l)
  have hfirst := findSome?_finRange_eq_some (blockRejection_of_foreign h)
    fun c hc => blockRejection_eq_none_iff.2 (below c hc)
  simp [batchFailure, hpass, hfirst]

end Sys2Proof.Machine
end

section
open Sys2Proof Sys2Proof.Machine

/-- Settles O43: the seven reasons by the order of `slotFailure_eq`, the report by the lowest slot or block that fails
and the number of the last edit that names it. -/
theorem fitChecksOfASlot : Obligations.FitChecksOfASlot := by
  refine ⟨fun s p edits l live d => slotFailure_first, fun s p edits => ⟨fun l z => projectedDepth_iff,
    batchFailure_eq_none_iff, fun l reason before e after hfails hlowest hedits he hafter => ?_,
    fun b before after hslots hforeign hlowest hedits hafter => ?_⟩⟩
  · rw [batchFailure_of_slot hfails hlowest, hedits, lastIndex_eq (by simpa using he) (by simpa using hafter)]
  · have hlast (x : Edit) (hx : x ∈ after) : decide (x.block? = some b) = false := by
      simp only [Edit.block?_eq_some_iff, decide_eq_false_iff_not]
      rintro rfl
      exact hafter hx
    rw [batchFailure_of_block hslots hforeign hlowest, hedits, lastIndex_eq (by simp) hlast]

end

section
/-! PROOF. An access completion and the refresh engine: the row off the owed list, or fresh (R136, R137). -/

namespace Sys2Proof.Machine

/-- Setting a fresh flag sets that one and leaves the others. -/
theorem RefreshBank.withFresh_true_getLsb (r : RefreshBank) (x y : Fin 1024) :
    (r.withFresh x true).fresh.getLsb y = (r.fresh.getLsb y || decide (y = x)) := by
  have hbit : (BitVec.twoPow 1024 x.val).getLsb y = decide (y = x) :=
    (BitVec.getElem_twoPow y.isLt).trans (decide_eq_decide.2 (by rw [Fin.ext_iff, eq_comm]))
  rw [← hbit]
  exact BitVec.getElem_or y.isLt

section
variable {r : RefreshBank} {x : Fin 1024}

/-- A completed row on the owed list leaves it, its fresh flag staying clear (R136). -/
theorem RefreshBank.complete_owed (h : x ∈ r.owed) : r.complete x =
    { r with owed := r.owed.filter fun y => decide (y ≠ x)
             request := (r.owed.filter fun y => decide (y ≠ x)).head? } := by
  rw [RefreshBank.complete, if_pos (List.contains_iff_mem.2 h)]

/-- A completed row that is not owed becomes fresh (R136). -/
theorem RefreshBank.complete_not_owed (h : x ∉ r.owed) :
    r.complete x = { r.withFresh x true with request := r.owed.head? } := by
  rw [RefreshBank.complete, if_neg (mt List.contains_iff_mem.1 h)]
  rfl

end

/-- ACCESS_COMPLETION while the bank has an access in flight: that access completes, and its messages settle. -/
theorem exec_accessCompletion {b : BankId} {s : State} {a : Access} (hready : ready s = true)
    (hflight : (s.banks.get b).inFlight = some a) :
    exec (.accessCompletion b) s = .next (completeAccess b a s).settleAndArbitrate := by
  show execAccessCompletion b s = _
  rw [execAccessCompletion, whenRunning_ready _ hready, hflight]

/-- Of the refresh engine a completion changes the state of its bank, whatever the access and whoever asked. -/
theorem completion_refresh (b : BankId) (a : Access) (s : State) :
    (completeAccess b a s).settleAndArbitrate.refresh =
      s.refresh.set b ((s.refresh.get b).complete (bankRowOf a.row)) := by
  obtain ⟨_, _, _, _, _, h⟩ := completion_frame b a s
  rw [h]

end Sys2Proof.Machine
end

section
open Sys2Proof Sys2Proof.Machine

/-- Settles O49: the two cases of `RefreshBank.complete`, the completed row on the owed list or not. -/
theorem completionServesRefresh : Obligations.CompletionServesRefresh := by
  intro b s a hready hflight k x
  have hbank : (completeAccess b a s).settleAndArbitrate.refresh.get b = k.complete x := by
    rw [completion_refresh, PerBank.get_set_same]
    rfl
  refine ⟨_, exec_accessCompletion hready hflight, fun c hc => ?_, fun howed => ?_, fun hnot => ?_⟩
  · rw [completion_refresh, PerBank.get_set_other _ _ hc]
  · rw [hbank, RefreshBank.complete_owed howed]
  · rw [hbank, RefreshBank.complete_not_owed hnot]
    exact ⟨rfl, rfl, rfl, rfl, k.withFresh_true_getLsb x⟩

end

section
/-! SUPPORT. The lists of ports, and a step's messages settled where each port gets at most one. -/

namespace Sys2Proof.Machine

@[simp] theorem mem_allPorts (p : PortId) : p ∈ allPorts := by
  cases p <;> decide

@[simp] theorem mem_otherPorts {p q : PortId} : q ∈ otherPorts p ↔ q ≠ p := by
  simp [otherPorts]

theorem mem_joinedOthers {s : State} {p q : PortId} : q ∈ joinedOthers s p ↔ q ≠ p ∧ s.joined q = true := by
  simp [joinedOthers]

theorem nodup_joinedOthers (s : State) (p : PortId) : (joinedOthers s p).Nodup :=
  have hall : allPorts.Nodup := by decide
  (hall.filter _).filter _

/-- No other port is JOINED. -/
theorem joinedOthers_eq_nil_iff {s : State} {p : PortId} :
    joinedOthers s p = [] ↔ (allPorts.all fun v => decide (v = p) || !s.joined v) = true := by
  simp [List.eq_nil_iff_forall_not_mem, mem_joinedOthers, or_iff_not_imp_left]

/-- The port controller of a JOINED port takes events (R201). -/
theorem takesEvents_of_joined {s : State} {p : PortId} (h : s.joined p = true) :
    (s.session.records.get p).takesEvents = true := by
  have hstate : (s.session.records.get p).state = .joined := of_decide_eq_true h
  simp [Session.takesEvents, hstate]

@[simp] theorem answer_st (p : PortId) (result : Result) (payload : List Byte) (s : State) :
    (answer p result payload s).st = s := rfl

@[simp] theorem answer_out (p : PortId) (result : Result) (payload : List Byte) (s : State) :
    (answer p result payload s).out = [(.response, .respond p result payload)] := rfl

@[simp] theorem Act.sendAll_st (a : Act) (o : Origin) (l : List PortId) (e : Event) : (a.sendAll o l e).st = a.st := rfl

@[simp] theorem Act.sendAll_out (a : Act) (o : Origin) (l : List PortId) (e : Event) :
    (a.sendAll o l e).out = a.out ++ l.map fun v => (o, Msg.event v e) := rfl

section
variable {a : Act} (hend : ∀ q, Msg.sessionEnd q ∉ a.out.map Prod.snd)
include hend

/-- Where no session ends, settling changes the controllers and uses up one entry of `arrivals`. -/
theorem settle_eq_of_no_end :
    a.settle = { a.st with ports := a.settle.ports, arrivals := a.st.arrivals.tail } := by
  have hsession : a.settle.session = a.st.session :=
    deliverAll_session _ _ fun q => by rw [mem_arrange]; exact hend q
  obtain ⟨ports, records, h⟩ := settle_frame a
  rw [h] at hsession ⊢
  dsimp only at hsession
  simp [hsession]

/-- A port with at most one message gets it, whatever the order of arrival. -/
theorem settle_port_of_single {q : PortId} {m : Option Msg}
    (hm : (a.out.map Prod.snd).filter (Msg.goesTo q) = m.toList) :
    a.settle.ports.get q = m.toList.foldl (PortController.afterMsg (a.st.session.records.get q).takesEvents)
      (a.st.ports.get q) := by
  have hperm := (arrange_perm (a.st.arrivals.headD []) a.out).filter (Msg.goesTo q)
  rw [hm] at hperm
  have harrived : (arrange (a.st.arrivals.headD []) a.out).filter (Msg.goesTo q) = m.toList := by
    cases m with
    | none => exact List.perm_nil.1 hperm
    | some m => exact List.perm_singleton.1 hperm
  rw [← harrived]
  exact deliverAll_port q _ _ fun p => by rw [mem_arrange]; exact hend p

end

/-- The answer to a request that is due: the request leaves the queue and its response is the last frame outbound. -/
theorem takeResponse_of_asks {s : State} {p : PortId} {r : Request} (h : asks s p r = true) (result : Result)
    (payload : List Byte) : (s.ports.get p).takeResponse result payload =
      { s.ports.get p with requests := (s.ports.get p).requests.tail
                           outbound := (s.ports.get p).outbound ++ [.response r.tag result payload] } := by
  obtain ⟨-, hexecuting, hdiscard, -, hhead⟩ := asks_iff.1 h
  obtain ⟨rest, hrequests⟩ := List.head?_eq_some_iff.1 hhead
  simp [PortController.takeResponse, hrequests, hexecuting, hdiscard]

/-- Of one event to each of some ports, a port gets one if it is among them. -/
theorem filter_goesTo_events {l : List PortId} (hl : l.Nodup) (q : PortId) (e : Event) :
    (l.map fun v => Msg.event v e).filter (Msg.goesTo q) =
      (if q ∈ l then some (Msg.event q e) else none).toList := by
  have hone : l.filter (fun v => decide (v = q)) = (if q ∈ l then some q else none).toList := by
    rw [List.filter_eq, hl.count]
    split <;> rfl
  rw [List.filter_map]
  show (l.filter fun v => decide (v = q)).map _ = _
  rw [hone]
  split <;> rfl

section
variable {s u : State} {p : PortId} {r : Request} (hasks : asks s p r = true) (hports : u.ports = s.ports)
variable (result : Result) (payload : List Byte) (o : Origin) (l : List PortId) (e : Event)
include hasks hports

/-- An answer and one event to each of some other ports, settled: the rest of the state is the body's, and each port
gets its message. -/
theorem settle_answer_sendAll (hp : p ∉ l) (hl : l.Nodup) :
    let t := ((answer p result payload u).sendAll o l e).settle
    t = { u with ports := t.ports, arrivals := u.arrivals.tail } ∧
      t.ports.get p = { s.ports.get p with
        requests := (s.ports.get p).requests.tail
        outbound := (s.ports.get p).outbound ++ [.response r.tag result payload] } ∧
      ∀ v, v ≠ p → t.ports.get v = if v ∈ l ∧ (u.session.records.get v).takesEvents = true then
        (s.ports.get v).takeEvent e else s.ports.get v := by
  intro t
  have hout : ((answer p result payload u).sendAll o l e).out.map Prod.snd =
      .respond p result payload :: l.map fun v => Msg.event v e := by
    simp
  have hend : ∀ q, Msg.sessionEnd q ∉ ((answer p result payload u).sendAll o l e).out.map Prod.snd := by
    simp
  refine ⟨settle_eq_of_no_end hend, ?_, fun v hv => ?_⟩
  · have hone := settle_port_of_single hend (q := p) (m := some (.respond p result payload)) (by
      rw [hout, List.filter_cons, filter_goesTo_events hl, if_neg hp]
      simp [Msg.goesTo])
    rw [← takeResponse_of_asks hasks, ← hports]
    exact hone
  · have hone := settle_port_of_single hend (q := v) (m := if v ∈ l then some (.event v e) else none) (by
      rw [hout, List.filter_cons, filter_goesTo_events hl]
      simp [Msg.goesTo, hv.symm])
    rw [← hports]
    by_cases hmem : v ∈ l
    · simpa [hmem, PortController.afterMsg] using hone
    · simpa [hmem] using hone

end

end Sys2Proof.Machine
end

section
/-! PROOF. Propose in each plan state (R184), and what makes a plan valid (R180). -/

namespace Sys2Proof.Machine

variable {s : State} {p : PortId} {payload : List Byte} {k : Plan}

theorem proposeBody_busy (h : s.session.planState.proposal? ≠ none) :
    proposeBody p payload s = answer p .busy [] s := by
  unfold proposeBody
  cases hstate : s.session.planState with
  | steady => simp [hstate, PlanState.proposal?] at h
  | voting q => rfl
  | adopting q => rfl

theorem proposeBody_out_of_range (hsteady : s.session.planState = .steady) (h : decodePlan payload = none) :
    proposeBody p payload s = answer p .field [] s := by
  simp [proposeBody, hsteady, h]

theorem proposeBody_invalid (hsteady : s.session.planState = .steady) (hplan : decodePlan payload = some k)
    (h : planValid k = false) : proposeBody p payload s = answer p .field [] s := by
  simp [proposeBody, hsteady, hplan, h]

theorem proposeBody_valid (hsteady : s.session.planState = .steady) (hplan : decodePlan payload = some k)
    (h : planValid k = true) : proposeBody p payload s =
      (answer p .ok (encode16 (planDigest k).toNat) (s.setPlanState
        (if joinedOthers s p = [] then .adopting (newProposal s p k) else .voting (newProposal s p k)))).sendAll
          .plan (joinedOthers s p) (.planProposed p (planDigest k)) := by
  simp [proposeBody, hsteady, hplan, h]

/-- PROPOSE of a request that is due: the body's state, answer and events, settled. -/
theorem exec_propose {r : Request} (h : asksFor s p r 0x05 44 = true) :
    exec (.propose p) s = .next (proposeBody p r.payload s).settle :=
  congrArg Host.Outcome.next (serve_asksFor .joinedOnly (proposeBody p) Act.settle h (by decide))

/-- No depth value lies in both bands. -/
theorem bandsDisjoint_iff {x y : Option Band} : bandsDisjoint x y = true ↔
    ∀ a b, x = some a → y = some b → a.high < b.low ∨ b.high < a.low := by
  cases x <;> cases y <;> simp [bandsDisjoint]

/-- A layer quota within the size of the band; an empty band allows none. -/
theorem le_bandSize_iff {n : Nat} {x : Option Band} : n ≤ bandSize x ↔
    match x with
    | some b => n ≤ b.high - b.low + 1
    | none => n = 0 := by
  cases x <;> simp [bandSize]

theorem planValid_iff : planValid k = true ↔
    (quotaTotal k Quotas.layers ≤ 16 ∧ quotaTotal k Quotas.extents ≤ 32 ∧ quotaTotal k Quotas.rows ≤ 4096 ∧
      quotaTotal k Quotas.blocks ≤ 64 ∧ quotaTotal k Quotas.windows ≤ 8) ∧
    (∀ p q, p ≠ q → bandsDisjoint (k.quotas.get p).band (k.quotas.get q).band = true) ∧
    ∀ p, (k.quotas.get p).layers ≤ bandSize (k.quotas.get p).band := by
  simp [planValid, and_assoc, ne_comm]

end Sys2Proof.Machine
end

section
open Sys2Proof Sys2Proof.Machine

/-- Settles O19: the branches of `proposeBody`, the answer and the events of a new proposal each the one message of its
port, and the three parts of `planValid`. -/
theorem proposeCreatesAProposal : Obligations.ProposeCreatesAProposal := by
  refine ⟨fun p r s h => ?_, fun k => ?_⟩
  · have hasks : asks s p r = true := (asksFor_iff.1 h).1
    refine ⟨fun hproposal => ?_, fun hsteady hrange => ?_, fun k hsteady hplan hinvalid => ?_,
      fun k hsteady hplan hvalid => ?_⟩
    · rw [exec_propose h, proposeBody_busy hproposal, settle_answer _ _ _ hasks rfl]
    · rw [exec_propose h, proposeBody_out_of_range hsteady hrange, settle_answer _ _ _ hasks rfl]
    · rw [exec_propose h, proposeBody_invalid hsteady hplan hinvalid, settle_answer _ _ _ hasks rfl]
    · intro q
      have hproposer : p ∉ joinedOthers s p := by simp [mem_joinedOthers]
      obtain ⟨hstate, hanswer, hothers⟩ := settle_answer_sendAll hasks (u := s.setPlanState
          (if joinedOthers s p = [] then .adopting q else .voting q)) rfl .ok (encode16 (planDigest k).toNat) .plan
        (joinedOthers s p) (.planProposed p (planDigest k)) hproposer (nodup_joinedOthers s p)
      refine ⟨_, by rw [exec_propose h, proposeBody_valid hsteady hplan hvalid]; rfl, ?_, hanswer, fun v hv => ?_⟩
      · simp only [← joinedOthers_eq_nil_iff]
        exact hstate
      · rw [hothers v hv]
        refine if_congr ?_ rfl rfl
        rw [mem_joinedOthers]
        exact ⟨fun hv' => hv'.1.2, fun hjoined => ⟨⟨hv, hjoined⟩, takesEvents_of_joined hjoined⟩⟩
  · simp only [planValid_iff, bandsDisjoint_iff, le_bandSize_iff]
    rfl

end

section
/-! SUPPORT. What each output pin shows: the panel pins (R30), ATN_n (R204) and SDO (R191). -/

namespace Sys2Proof.Machine

theorem activePixel_iff {c : ScanEngine} :
    activePixel c = true ↔ c.phase = .active ∧ c.pixelTime < c.timing.width := by
  simp [activePixel]

theorem hsyncHigh_eq_false_iff {c : ScanEngine} :
    hsyncHigh c = false ↔ c.timing.width + 8 ≤ c.pixelTime ∧ c.pixelTime ≤ c.timing.width + 23 := by
  simp [hsyncHigh]

theorem vsyncHigh_eq_false_iff {c : ScanEngine} :
    vsyncHigh c = false ↔ c.phase = .blank ∧ (c.lineNo = 1 ∨ c.lineNo = 2) := by
  simp [vsyncHigh, or_iff_not_imp_left]

/-- A colour is its red, green and blue bytes, red the most significant. -/
theorem color_toNat_eq_bytes (v : Color) : v.toNat =
    65536 * (v.extractLsb' 16 8).toNat + 256 * (v.extractLsb' 8 8).toNat + (v.extractLsb' 0 8).toNat := by
  simp only [BitVec.extractLsb'_toNat, Nat.shiftRight_eq_div_pow]
  omega

/-- Past the last byte of the frame a transaction carries 00h. -/
theorem Transaction.byteAt_of_length_le {t : Transaction} {i : Nat} (h : t.bytes.length ≤ i) : t.byteAt i = 0 :=
  List.getD_eq_default _ _ h

section
variable {s : State} (hreset : s.resetN = true)
include hreset

theorem panelPins_of_lit (h : activePixel s.scan = true ∧ s.scan.output = .lit) : panelPins s =
    let v := s.scan.line.getD s.scan.pixelTime 0
    { clock := true, pr := v.extractLsb' 16 8, pg := v.extractLsb' 8 8, pb := v.extractLsb' 0 8, de := true,
      hsync := hsyncHigh s.scan, vsync := vsyncHigh s.scan } := by
  rw [panelPins, if_pos hreset]
  exact if_pos h

theorem panelPins_of_unlit (h : ¬(activePixel s.scan = true ∧ s.scan.output = .lit)) : panelPins s =
    { clock := true, pr := 0, pg := 0, pb := 0, de := false, hsync := hsyncHigh s.scan,
      vsync := vsyncHigh s.scan } := by
  rw [panelPins, if_pos hreset]
  exact if_neg h

/-- While RESET_N is high PCLK and the two sync pins run in every pixel time, active or not. -/
theorem panelPins_timing : (panelPins s).clock = true ∧ (panelPins s).hsync = hsyncHigh s.scan ∧
    (panelPins s).vsync = vsyncHigh s.scan := by
  by_cases h : activePixel s.scan = true ∧ s.scan.output = .lit
  · simp [panelPins_of_lit hreset h]
  · simp [panelPins_of_unlit hreset h]

theorem atnPin_eq_false_iff {p : PortId} : atnPin s p = false ↔ (s.ports.get p).outbound ≠ [] := by
  simp [atnPin, atnHigh, hreset]

theorem sdoHigh_of_transaction {p : PortId} {t : Transaction} (hsel : (s.ports.get p).selHigh = false)
    (ht : (s.ports.get p).transaction = some t) (i bit : Nat) :
    sdoHigh s p i bit = (t.byteAt i).getLsbD (7 - bit) := by
  simp [sdoHigh, hreset, hsel, ht]

end

theorem sdoHigh_of_selHigh {s : State} {p : PortId} (hsel : (s.ports.get p).selHigh = true) (i bit : Nat) :
    sdoHigh s p i bit = true := by
  simp [sdoHigh, hsel]

end Sys2Proof.Machine
end

section
open Sys2Proof Sys2Proof.Machine

/-- Settles O42: the panel pins by whether the pixel time is an active one of a LIT frame, ATN_n by its queue, SDO by
SEL_n and by the end of the frame's bytes. -/
theorem pinsFollowTheState : Obligations.PinsFollowTheState := by
  intro s hreset c k shown
  have hshown : shown ↔ activePixel c = true ∧ c.output = .lit := and_congr_left' activePixel_iff.symm
  obtain ⟨hclock, hhsync, hvsync⟩ := panelPins_timing hreset
  refine ⟨hclock, fun hlit => ?_, fun hunlit => ?_, ?_, ?_, fun p =>
    ⟨atnPin_eq_false_iff hreset, sdoHigh_of_selHigh, fun t hsel ht => ⟨fun i bit _ _ => ?_, fun i bit hend => ?_⟩⟩⟩
  · have hk := panelPins_of_lit hreset (hshown.1 hlit)
    refine ⟨congrArg PanelPins.de hk, fun v hv => ?_⟩
    have hpixel : s.scan.line.getD s.scan.pixelTime 0 = v := by simp [c, hv]
    rw [hpixel] at hk
    simp only [k, hk]
    exact color_toNat_eq_bytes v
  · simp [k, panelPins_of_unlit hreset (mt hshown.2 hunlit)]
  · rw [hhsync]
    exact hsyncHigh_eq_false_iff
  · rw [hvsync]
    exact vsyncHigh_eq_false_iff
  · exact sdoHigh_of_transaction hreset hsel ht i bit
  · simp [sdoHigh_of_transaction hreset hsel ht, Transaction.byteAt_of_length_le hend]

end

section
/-! SUPPORT. What a request can do, said once: the changes of state a request makes together with its answer, and the
requests that do more than that. Invariants are proved by cases over these. -/

set_option Elab.async false

namespace Sys2Proof.Machine

/-- A change of state that a request of the port makes before its answer goes out, with the guards its block tests;
`moves` says whether the request can be Move Now. -/
inductive RequestChange (moves : Prop) (p : PortId) (s : State) : State → Prop
  | none : RequestChange moves p s s
  | join (lease : Byte) (view : View) (hstate : s.sessionState p = .absent) : RequestChange moves p s
      (transferJoin p (s.setSession p { state := .joined, lease, counter := lease, view, cause := .none }))
  | setView (view : View) : RequestChange moves p s (s.setSession p { s.session.records.get p with view })
  | propose (payload : List Byte) (k : Plan) (q : PlanState) (hdecode : decodePlan payload = some k)
      (hvalid : planValid k = true) (hq : q.proposal? = some (newProposal s p k)) :
      RequestChange moves p s (s.setPlanState q)
  | reject : RequestChange moves p s (s.setPlanState .steady)
  | accept (q : Proposal) (hvoting : s.session.planState = .voting q) :
      RequestChange moves p s (s.setPlanState (countAccept q p))
  | claimLayer (l : Fin 16) (z : Fin 64) (hjoined : s.sessionState p = .joined) (hfree : s.slot l = .free)
      (hband : inBand z.val (s.quotas p).band = true) (hdepth : depthHeld s p z = false) :
      RequestChange moves p s (s.setSlot l (.held .owned p (defaultDescriptor z)))
  | stage (e : Edit) (hroom : (s.commit.batches.get p).edits.length < maxEdits) : RequestChange moves p s
      (s.setBatch p { state := .opened, edits := (s.commit.batches.get p).edits ++ [e], target := .none })
  | close (target : Option Half) (hopen : (s.commit.batches.get p).state = .opened) : RequestChange moves p s
      (s.setBatch p { s.commit.batches.get p with state := .closed, target })
  | abandon : RequestChange moves p s (s.setBatch p emptyBatch)
  | move (l : Fin 16) (d : Descriptor) (x y : Int) (before after : Rect) (hslot : s.slot l = .held .owned p d)
      (hmoves : moves) : RequestChange moves p s (noticeMove before after (s.setSlot l (.held .owned p { d with x, y })))
  | window (n : Fin 8) (w : Option Window) : RequestChange moves p s (s.setWindow n w)
  | alloc (h : Fin 32) (g n : Nat) (hrows : 1 ≤ n) (hfree : s.extent h = .none)
      (hfit : firstFit (takenRuns s) n = some g) : RequestChange moves p s
      ((s.setExtent h (some (newExtent p g n))).setClearList p (s.extents.clearLists.get p ++ [h]))
  | grant (h : Fin 32) (q : PortId) : RequestChange moves p s (setGrant h q .granted s)
  | mend (h : Fin 32) (e : Extent) (hextent : s.extent h = some e) : RequestChange moves p s
      (s.setExtent h (some { e with state := .ready, lost := 0 }))
  | seek (c : Cursor) : RequestChange moves p s (setCursor p c s)
  | claimPalette (first count : Nat) (hfree : blocksFree s first count = true) :
      RequestChange moves p s (claimRun p first count s)
  | releasePalette (first count : Nat) : RequestChange moves p s (releaseRun first count s)
  | paletteWrite (b : Fin 64) (shadow : Vector Color 16) (howner : (s.block b).ownedBy p = true) :
      RequestChange moves p s (s.setBlock b { s.block b with shadow, dirty := true })

/-- What the execution of a request of the port can be: an answer, with a change of state and events to ports; the
departure of the port; an extent freed or a grant revoked after the answer; a transfer begun; or a Read answered from
the buffer. -/
inductive Serves (moves : Prop) (p : PortId) (s : State) : Act → Prop
  | change (u : State) (result : Result) (payload : List Byte) (o : Origin) (l : List PortId) (e : Event)
      (hchange : RequestChange moves p s u) : Serves moves p s ((answer p result payload u).sendAll o l e)
  | leave (hjoined : s.sessionState p = .joined) : Serves moves p s ((answer p .ok [] s).andThen (teardownStart p .leave))
  | free (h : Fin 32) (e : Extent) (hextent : s.extent h = some e) (hunused : e.unreferenced = true) :
      Serves moves p s ((answer p .ok [] s).andThen (releaseExtent h))
  | revoke (h : Fin 32) (q : PortId) : Serves moves p s ((answer p .ok [] s).andThen (revokeGrant h p q))
  | begin (j : Job) (u : State) (hu : u = s ∨ u = emptyBuffer p s) : Serves moves p s (.quiet (startJob p j u))
  | serve (j : Job) (bytes : List Byte) : Serves moves p s (finishRead p j bytes s)

/-- The test holds at the index found. -/
theorem holds_of_lowest {n : Nat} {q : Fin n → Bool} {i : Fin n} (h : lowest q = some i) : q i = true :=
  List.find?_some h

section
variable {moves : Prop} {p : PortId} {s u : State} {payload : List Byte}

theorem Serves.of_change (result : Result) (bytes : List Byte) (h : RequestChange moves p s u) :
    Serves moves p s (answer p result bytes u) :=
  Serves.change u result bytes .response [] .leaseExpired h

theorem Serves.answer (result : Result) (bytes : List Byte) : Serves moves p s (answer p result bytes s) :=
  Serves.of_change result bytes .none

/-! ### Sessions and the plan -/

theorem statusBody_serves : Serves moves p s (statusBody p payload s) := .answer _ _

theorem joinBody_serves (h : s.sessionState p ≠ .draining) : Serves moves p s (joinBody p payload s) := by
  unfold joinBody
  split
  · exact .answer _ _
  · rename_i hjoined
    split
    · exact .answer _ _
    · exact .change _ _ _ _ _ _ (.join _ _ (by cases hs : s.sessionState p <;> simp_all))

theorem leaveBody_serves (h : s.sessionState p = .joined) : Serves moves p s (leaveBody p payload s) := .leave h

theorem getPlanBody_serves : Serves moves p s (getPlanBody p payload s) := by
  unfold getPlanBody
  split
  · exact .answer _ _
  · split <;> exact .answer _ _
  · exact .answer _ _

theorem proposeBody_serves : Serves moves p s (proposeBody p payload s) := by
  unfold proposeBody
  split
  · exact .answer _ _
  · exact .answer _ _
  · split
    · exact .answer _ _
    · rename_i k hdecode
      split
      · rename_i hvalid
        refine .change _ _ _ _ _ _ (.propose payload k _ hdecode hvalid ?_)
        split <;> rfl
      · exact .answer _ _

theorem voteCounts_voting {q : PlanState} {digest : Nat} {v : Proposal} (h : voteCounts q p digest = some v) :
    q = .voting v := by
  unfold voteCounts at h
  split at h
  · split at h
    · rw [Option.some.inj h]
    · cases h
  · cases h

theorem voteBody_serves : Serves moves p s (voteBody p payload s) := by
  unfold voteBody
  dsimp only
  split
  · exact .answer _ _
  · split
    · exact .answer _ _
    · rename_i hcounts
      split
      · exact .change _ _ _ _ _ _ .reject
      · exact .of_change _ _ (.accept _ (voteCounts_voting hcounts))

/-! ### Layers and batches -/

theorem claimLayerBody_serves (h : s.sessionState p = .joined) : Serves moves p s (claimLayerBody p payload s) := by
  unfold claimLayerBody
  split
  · exact .answer _ _
  · split
    · rename_i l z hl hz
      obtain ⟨hband, hdepth⟩ := Bool.and_eq_true_iff.1 (holds_of_lowest hz)
      exact .of_change _ _
        (.claimLayer l z h (of_decide_eq_true (holds_of_lowest hl)) hband (Bool.not_eq_true' _ ▸ hdepth))
    · exact .answer _ _

theorem getLayerBody_serves : Serves moves p s (getLayerBody p payload s) := by
  unfold getLayerBody
  split
  · exact .answer _ _
  · split
    · exact .answer _ _
    · split <;> exact .answer _ _

theorem setViewBody_serves : Serves moves p s (setViewBody p payload s) := by
  unfold setViewBody
  split
  · exact .answer _ _
  · exact .of_change _ _ (.setView _)

theorem stageBody_serves : Serves moves p s (stageBody p payload s) := by
  unfold stageBody
  dsimp only
  split
  · exact .answer _ _
  · split
    · exact .answer _ _
    · split
      · exact .answer _ _
      · split
        · exact .answer _ _
        · rename_i hroom
          exact .of_change _ _ (.stage _ (Nat.lt_of_not_le hroom))

theorem closeBatchBody_serves : Serves moves p s (closeBatchBody p payload s) := by
  unfold closeBatchBody
  dsimp only
  split
  · exact .answer _ _
  · exact .answer _ _
  · exact .of_change _ _ (.close _ ‹_›)

theorem abandonBatchBody_serves : Serves moves p s (abandonBatchBody p payload s) := by
  unfold abandonBatchBody
  dsimp only
  split
  · exact .answer _ _
  · exact .of_change _ _ .abandon

theorem moveNowBody_serves (h : moves) : Serves moves p s (moveNowBody p payload s) := by
  unfold moveNowBody
  split
  · split
    · rename_i hslot
      split
      · exact .answer _ _
      · rename_i howner
        obtain rfl := Decidable.not_not.1 howner
        split
        · exact .answer _ _
        · split
          · exact .answer _ _
          · exact .of_change _ _ (.move _ _ _ _ _ _ hslot h)
    · exact .answer _ _
  · exact .answer _ _

/-! ### Windows -/

theorem defineWindowBody_serves : Serves moves p s (defineWindowBody p payload s) := by
  unfold defineWindowBody
  split
  · exact .answer _ _
  · split
    · exact .answer _ _
    · split
      · exact .answer _ _
      · exact .of_change _ _ (.window _ _)

theorem onWindow_serves {ownerOnly : Bool} {body : Fin 8 → Window → Act} (h : ∀ n w, Serves moves p s (body n w)) :
    Serves moves p s (onWindow p ownerOnly payload s body) := by
  unfold onWindow
  split
  · exact .answer _ _
  · split
    · exact .answer _ _
    · split
      · exact .answer _ _
      · exact h _ _

theorem changeWindowBody_serves : Serves moves p s (changeWindowBody p payload s) :=
  onWindow_serves fun n w => by
    split
    · exact .answer _ _
    · split
      · exact .answer _ _
      · exact .of_change _ _ (.window _ _)

theorem armBody_serves : Serves moves p s (armBody p payload s) :=
  onWindow_serves fun n w => by
    split
    · exact .answer _ _
    · exact .of_change _ _ (.window _ _)

theorem disarmBody_serves : Serves moves p s (disarmBody p payload s) :=
  onWindow_serves fun n w => by
    split
    · exact .of_change _ _ (.window _ _)
    · exact .answer _ _

theorem freeWindowBody_serves : Serves moves p s (freeWindowBody p payload s) :=
  onWindow_serves fun _ _ => .of_change _ _ (.window _ _)

theorem getWindowBody_serves : Serves moves p s (getWindowBody p payload s) :=
  onWindow_serves fun _ _ => .answer _ _

/-! ### Extents -/

theorem within_bounds {lo hi v n : Nat} (h : within lo hi v = some n) : lo ≤ n ∧ n ≤ hi := by
  unfold within at h
  split at h
  · obtain rfl := Option.some.inj h
    assumption
  · cases h

theorem allocExtentBody_serves : Serves moves p s (allocExtentBody p payload s) := by
  unfold allocExtentBody
  split
  · exact .answer _ _
  · rename_i n hn
    split
    · exact .answer _ _
    · split
      · exact .answer _ _
      · rename_i h hh
        have hfree : s.extent h = none := Option.isNone_iff_eq_none.1 (holds_of_lowest hh)
        split
        · exact .answer _ _
        · rename_i g hg
          exact .of_change _ _ (.alloc h g n (within_bounds hn).1 hfree hg)

theorem onOwnExtent_serves {body : Fin 32 → Extent → Act} (h : ∀ k e, s.extent k = some e → Serves moves p s (body k e)) :
    Serves moves p s (onOwnExtent p payload s body) := by
  unfold onOwnExtent
  split
  · exact .answer _ _
  · split
    · exact .answer _ _
    · split
      · exact h _ _ ‹_›
      · exact .answer _ _

theorem onOwnExtentAndPort_serves {body : Fin 32 → Extent → PortId → Act} (h : ∀ k e q, Serves moves p s (body k e q)) :
    Serves moves p s (onOwnExtentAndPort p payload s body) := by
  unfold onOwnExtentAndPort
  split
  · exact .answer _ _
  · exact onOwnExtent_serves fun k e _ => h k e _

theorem freeExtentBody_serves : Serves moves p s (freeExtentBody p payload s) :=
  onOwnExtent_serves fun h e he => by
    split
    · exact .free h e he ‹_›
    · exact .answer _ _

theorem grantBody_serves : Serves moves p s (grantBody p payload s) :=
  onOwnExtentAndPort_serves fun h e q => by
    split
    · exact .answer _ _
    · exact .of_change _ _ (.grant h q)

theorem revokeBody_serves : Serves moves p s (revokeBody p payload s) :=
  onOwnExtentAndPort_serves fun h e q => by
    split
    · exact .answer _ _
    · exact .revoke h q

theorem mendBody_serves : Serves moves p s (mendBody p payload s) :=
  onOwnExtent_serves fun h e he => by
    split
    · exact .answer _ _
    · exact .answer _ _
    · exact .of_change _ _ (.mend h e he)

theorem getExtentBody_serves : Serves moves p s (getExtentBody p payload s) := by
  unfold getExtentBody
  split
  · exact .answer _ _
  · split
    · exact .answer _ _
    · split <;> exact .answer _ _

/-! ### Host transfers -/

theorem seekBody_serves : Serves moves p s (seekBody p payload s) := by
  unfold seekBody
  split
  · split
    · exact .answer _ _
    · split
      · exact .answer _ _
      · split
        · exact .answer _ _
        · exact .of_change _ _ (.seek _)
  · exact .answer _ _

theorem writeBody_serves : Serves moves p s (writeBody p payload s) := by
  unfold writeBody
  split
  · exact .answer _ _
  · split
    · exact .answer _ _
    · split
      · exact .answer _ _
      · split
        · exact .answer _ _
        · exact .begin _ _ (.inr rfl)

theorem readBody_serves : Serves moves p s (readBody p payload s) := by
  unfold readBody
  split
  · exact .answer _ _
  · split
    · exact .answer _ _
    · split
      · exact .answer _ _
      · split
        · exact .answer _ _
        · split
          · exact .serve _ _
          · exact .begin _ _ (.inl rfl)
          · exact .begin _ _ (.inr rfl)

theorem updateBody_serves : Serves moves p s (updateBody p payload s) := by
  unfold updateBody
  split
  · exact .answer _ _
  · split
    · exact .answer _ _
    · split
      · exact .answer _ _
      · split
        · exact .answer _ _
        · split
          · exact .answer _ _
          · split
            · exact .answer _ _
            · exact .begin _ _ (.inr rfl)

/-! ### The palette -/

theorem claimPaletteBody_serves : Serves moves p s (claimPaletteBody p payload s) := by
  unfold claimPaletteBody
  split
  · split
    · exact .answer _ _
    · split
      · exact .answer _ _
      · rename_i hb
        exact .of_change _ _ (.claimPalette _ _ (Bool.and_eq_true_iff.1 (holds_of_lowest hb)).2)
  · exact .answer _ _

theorem releasePaletteBody_serves : Serves moves p s (releasePaletteBody p payload s) := by
  unfold releasePaletteBody
  split
  · split
    · exact .answer _ _
    · split
      · exact .answer _ _
      · split
        · exact .answer _ _
        · exact .of_change _ _ (.releasePalette _ _)
  · exact .answer _ _

theorem paletteWriteBody_serves : Serves moves p s (paletteWriteBody p payload s) := by
  unfold paletteWriteBody
  dsimp only
  split
  · split
    · exact .answer _ _
    · split
      · exact .answer _ _
      · rename_i howner
        exact .of_change _ _ (.paletteWrite _ _ (by simpa using howner))
  · exact .answer _ _

theorem paletteReadBody_serves : Serves moves p s (paletteReadBody p payload s) := by
  unfold paletteReadBody
  split
  · split
    · exact .answer _ _
    · split <;> exact .answer _ _
  · exact .answer _ _

end

end Sys2Proof.Machine
end

section
/-! SUPPORT. What the operations of the extent manager, the teardown and the request rows leave unchanged, said once. -/

set_option Elab.async false

namespace Sys2Proof.Machine

/-! ### Actions on extents, banks and transfer units -/

/-- Nothing the action sends ends a session. -/
def Act.endsNoSession (a : Act) : Prop := ∀ q, Msg.sessionEnd q ∉ a.out.map Prod.snd

/-- An action that changes extents, banks and transfer units alone, and ends no session. -/
def onExtents (s : State) (a : Act) : Prop :=
  (∃ extents banks transfer, a.st = { s with extents := extents, banks := banks, transfer := transfer }) ∧
    a.endsNoSession

/-- An action taken for each element of a list keeps what each single one keeps. -/
theorem Act.forEach_keeps {α : Type} {P : Act → Prop} {f : α → State → Act} (l : List α) {a : Act} (ha : P a)
    (hf : ∀ x ∈ l, ∀ b, P b → P (b.andThen (f x))) : P (a.forEach l f) := by
  induction l generalizing a with
  | nil => exact ha
  | cons x l ih =>
    exact ih (hf x List.mem_cons_self a ha) fun y hy => hf y (List.mem_cons_of_mem _ hy)

@[simp] theorem Act.quiet_st (s : State) : (Act.quiet s).st = s := rfl
@[simp] theorem Act.quiet_out (s : State) : (Act.quiet s).out = [] := rfl
@[simp] theorem Act.andThen_st (a : Act) (f : State → Act) : (a.andThen f).st = (f a.st).st := rfl
@[simp] theorem Act.andThen_out (a : Act) (f : State → Act) : (a.andThen f).out = a.out ++ (f a.st).out := rfl
@[simp] theorem Act.change_st (a : Act) (f : State → State) : (a.change f).st = f a.st := rfl
@[simp] theorem Act.change_out (a : Act) (f : State → State) : (a.change f).out = a.out := rfl
@[simp] theorem Act.send_st (a : Act) (o : Origin) (m : Msg) : (a.send o m).st = a.st := rfl
@[simp] theorem Act.send_out (a : Act) (o : Origin) (m : Msg) : (a.send o m).out = a.out ++ [(o, m)] := rfl

theorem Act.endsNoSession_quiet (s : State) : (Act.quiet s).endsNoSession := by simp [endsNoSession]

theorem Act.endsNoSession.andThen {a : Act} {f : State → Act} (ha : a.endsNoSession)
    (hf : (f a.st).endsNoSession) : (a.andThen f).endsNoSession := by
  intro q hq
  rw [Act.andThen_out, List.map_append, List.mem_append] at hq
  exact hq.elim (ha q) (hf q)

theorem Act.endsNoSession.sendAll {a : Act} (ha : a.endsNoSession) (o : Origin) (l : List PortId) (e : Event) :
    (a.sendAll o l e).endsNoSession := by
  intro q hq
  rw [Act.sendAll_out, List.map_append, List.mem_append] at hq
  exact hq.elim (ha q) (by simp)

theorem endsNoSession_answer (p : PortId) (result : Result) (payload : List Byte) (s : State) :
    (answer p result payload s).endsNoSession := by simp [Act.endsNoSession]

theorem onExtents_quiet (s : State) : onExtents s (.quiet s) :=
  ⟨⟨s.extents, s.banks, s.transfer, rfl⟩, Act.endsNoSession_quiet s⟩

theorem onExtents.andThen {s : State} {a : Act} {f : State → Act} (ha : onExtents s a)
    (hf : onExtents a.st (f a.st)) : onExtents s (a.andThen f) := by
  obtain ⟨⟨e, b, t, ha⟩, hs⟩ := ha
  obtain ⟨⟨e', b', t', hf⟩, hs'⟩ := hf
  exact ⟨⟨e', b', t', by rw [Act.andThen_st, hf, ha]⟩, hs.andThen hs'⟩

theorem onExtents.forEach {α : Type} {s : State} {a : Act} {f : α → State → Act} (l : List α) (ha : onExtents s a)
    (hf : ∀ x u, onExtents u (f x u)) : onExtents s (a.forEach l f) :=
  Act.forEach_keeps l ha fun x _ b hb => hb.andThen (hf x b.st)

theorem onExtents.change {s : State} {a : Act} (ha : onExtents s a) (f : State → State)
    (hf : ∀ u, ∃ extents, f u = { u with extents := extents }) : onExtents s (a.change f) := by
  obtain ⟨⟨e, b, t, ha⟩, hs⟩ := ha
  obtain ⟨e', he'⟩ := hf a.st
  exact ⟨⟨e', b, t, by rw [Act.change_st, he', ha]⟩, hs⟩

theorem onExtents.sendAll {s : State} {a : Act} (ha : onExtents s a) (o : Origin) (l : List PortId) (e : Event) :
    onExtents s (a.sendAll o l e) := ⟨ha.1, ha.2.sendAll o l e⟩

theorem endRead_out (p : PortId) (result : Result) (s : State) :
    (endRead p result s).out = [(.response, .respond p result [])] := rfl

theorem loseExtent_onExtents (h : Fin 32) (r : Result) (p : PortId) (s : State) :
    onExtents s (loseExtent h r p s) := by
  obtain ⟨b, t, hst⟩ := loseExtent_frame h r p s
  refine ⟨⟨s.extents, b, t, hst⟩, ?_⟩
  unfold loseExtent
  dsimp only
  split
  · split <;> simp [Act.endsNoSession, endRead_out]
  · simp [Act.endsNoSession]

theorem noticeFreed_endsNoSession (h : Fin 32) (s : State) : (noticeFreed h s).endsNoSession :=
  (onExtents.forEach allPorts (onExtents_quiet s) fun p u => loseExtent_onExtents h .noObject p u).2

theorem releaseExtent_onExtents (h : Fin 32) (s : State) : onExtents s (releaseExtent h s) := by
  obtain ⟨e, b, t, hst⟩ := releaseExtent_frame h s
  refine ⟨⟨e, b, t, hst⟩, ?_⟩
  unfold releaseExtent
  split
  · exact Act.endsNoSession_quiet s
  · exact ((Act.endsNoSession_quiet _).sendAll _ _ _).andThen (noticeFreed_endsNoSession h _)

theorem releaseIfUnreferenced_onExtents (h : Fin 32) (s : State) : onExtents s (releaseIfUnreferenced h s) := by
  unfold releaseIfUnreferenced
  split
  · split
    · exact releaseExtent_onExtents h s
    · exact onExtents_quiet s
  · exact onExtents_quiet s

theorem setGrant_frame (h : Fin 32) (p : PortId) (v : GrantState) (s : State) :
    ∃ extents, setGrant h p v s = { s with extents := extents } := by
  unfold setGrant
  split
  · exact ⟨_, rfl⟩
  · exact ⟨s.extents, rfl⟩

theorem onExtents_of_frame {s u : State} (h : ∃ extents, u = { s with extents := extents }) :
    onExtents s (.quiet u) := by
  obtain ⟨e, rfl⟩ := h
  exact ⟨⟨e, s.banks, s.transfer, rfl⟩, Act.endsNoSession_quiet _⟩

theorem onExtents.send_event {s : State} {a : Act} (ha : onExtents s a) (o : Origin) (p : PortId) (e : Event) :
    onExtents s (a.send o (.event p e)) := ha.sendAll o [p] e

theorem revokeGrant_onExtents (h : Fin 32) (g p : PortId) (s : State) : onExtents s (revokeGrant h g p s) := by
  unfold revokeGrant
  split
  · exact onExtents_quiet s
  · split
    · split
      · exact ((onExtents_of_frame (setGrant_frame h p _ s)).send_event _ _ _).andThen (loseExtent_onExtents _ _ _ _)
      · exact (onExtents_of_frame (setGrant_frame h p _ s)).send_event _ _ _
    · exact onExtents_quiet s
    · exact onExtents_quiet s

theorem orphanExtent_onExtents (p : PortId) (h : Fin 32) (s : State) : onExtents s (orphanExtent p h s) := by
  unfold orphanExtent
  split
  · exact onExtents_quiet s
  · split
    · have hquiet : ∀ e : Option Extent, onExtents s (.quiet (s.setExtent h e)) :=
        fun _ => onExtents_of_frame ⟨_, rfl⟩
      exact (((hquiet _).forEach _ fun q u => revokeGrant_onExtents h p q u).change _
        (setGrant_frame h p _)).andThen (releaseIfUnreferenced_onExtents _ _)
    · exact onExtents_quiet s

theorem orphanExtents_onExtents (p : PortId) (s : State) : onExtents s (orphanExtents p s) :=
  (onExtents_quiet s).forEach _ fun h u => orphanExtent_onExtents p h u

/-- A notice of damage changes banks and transfer units. -/
theorem noticeDamaged_frame (h : Fin 32) (s : State) :
    ∃ banks transfer, noticeDamaged h s = { s with banks := banks, transfer := transfer } := by
  have one : ∀ p s, ∃ banks transfer, noticeDamagedAt h p s = { s with banks := banks, transfer := transfer } := by
    intro p s
    unfold noticeDamagedAt
    dsimp only
    split
    · obtain ⟨b, j, hs, _⟩ := emptyBuffer_frame p s
      rw [hs]
      exact ⟨_, _, rfl⟩
    · exact ⟨_, _, rfl⟩
  have all : ∀ (l : List PortId) s, ∃ banks transfer, l.foldl (fun s p => noticeDamagedAt h p s) s =
      { s with banks := banks, transfer := transfer } := by
    intro l
    induction l with
    | nil => exact fun s => ⟨s.banks, s.transfer, rfl⟩
    | cons p l ih =>
      intro s
      obtain ⟨b, t, hs⟩ := one p s
      obtain ⟨b', t', hs'⟩ := ih (noticeDamagedAt h p s)
      exact ⟨b', t', by rw [List.foldl_cons, hs', hs]⟩
  exact all allPorts s

theorem lostRow_onExtents (g : Nat) (s : State) : onExtents s (lostRow g s) := by
  unfold lostRow
  split
  · exact onExtents_quiet s
  · split
    · exact onExtents_quiet s
    · split
      · exact onExtents_of_frame ⟨_, rfl⟩
      · unfold damageExtent
        dsimp only
        refine onExtents.sendAll ?_ _ _ _
        split
        · obtain ⟨b, t, hs⟩ := noticeDamaged_frame ‹_› (s.setExtent ‹_› (some _))
          rw [hs]
          exact ⟨⟨_, b, t, rfl⟩, Act.endsNoSession_quiet _⟩
        · exact onExtents_of_frame ⟨_, rfl⟩

theorem finishRead_onExtents (p : PortId) (j : Job) (bytes : List Byte) (s : State) :
    onExtents s (finishRead p j bytes s) := by
  obtain ⟨⟨⟨b, t, h⟩, hs⟩, _⟩ := finishRead_frame p j bytes s
  exact ⟨⟨_, b, t, h⟩, hs⟩

/-! ### The teardown start -/

theorem transferTeardown_frame (p : PortId) (s : State) :
    ∃ banks transfer, transferTeardown p s = { s with banks := banks, transfer := transfer } := by
  obtain ⟨b, j, h, _⟩ := emptyBuffer_frame p s
  unfold transferTeardown
  rw [h]
  exact ⟨_, _, rfl⟩

/-- The departure of a voter changes the plan state, which it leaves or makes STEADY. -/
theorem voterLeft_frame (p : PortId) (s : State) :
    (∃ q, (voterLeft p s).st = s.setPlanState q ∧ (q = s.session.planState ∨ q = .steady)) ∧
      (voterLeft p s).endsNoSession := by
  unfold voterLeft
  split
  · exact ⟨⟨_, rfl, .inl rfl⟩, Act.endsNoSession_quiet s⟩
  · split
    · exact ⟨⟨_, rfl, .inr rfl⟩, (Act.endsNoSession_quiet _).sendAll _ _ _⟩
    · exact ⟨⟨_, rfl, .inl rfl⟩, Act.endsNoSession_quiet s⟩

/-- What the teardown start of a port changes: its session record, the plan state, its batch and slots, its windows,
and extents, banks and transfer units. -/
theorem teardownStart_frame (p : PortId) (cause : TeardownCause) (s : State) :
    (∃ q extents banks transfer, (teardownStart p cause s).st =
      { s with
        session := { (sessionTeardown p cause s).session with planState := q }
        commit := (commitTeardown p s).commit, check := (checkTeardown p s).check
        extents := extents, banks := banks, transfer := transfer } ∧ (q = s.session.planState ∨ q = .steady)) ∧
      (teardownStart p cause s).endsNoSession := by
  obtain ⟨b, t, ht⟩ := transferTeardown_frame p (checkTeardown p (commitTeardown p (sessionTeardown p cause s)))
  obtain ⟨⟨q, hv, hq⟩, hend⟩ :=
    voterLeft_frame p (transferTeardown p (checkTeardown p (commitTeardown p (sessionTeardown p cause s))))
  obtain ⟨⟨e, b', t', ho⟩, hend'⟩ := orphanExtents_onExtents p
    (voterLeft p (transferTeardown p (checkTeardown p (commitTeardown p (sessionTeardown p cause s))))).st
  refine ⟨⟨q, e, b', t', ?_, ?_⟩, (((Act.endsNoSession_quiet _).sendAll _ _ _).andThen hend).andThen hend'⟩
  · simp only [teardownStart, Act.andThen_st, Act.sendAll_st, Act.quiet_st]
    rw [ho, hv, ht]
    rfl
  · rw [ht] at hq
    exact hq

/-! ### Requests -/

theorem setCursor_frame (p : PortId) (c : Cursor) (s : State) :
    ∃ banks transfer, setCursor p c s = { s with banks := banks, transfer := transfer } := by
  obtain ⟨b, j, h, _⟩ := emptyBuffer_frame p s
  unfold setCursor
  rw [h]
  exact ⟨_, _, rfl⟩

theorem transferJoin_frame (p : PortId) (s : State) :
    ∃ banks transfer, transferJoin p s = { s with banks := banks, transfer := transfer } := by
  obtain ⟨b, j, h, _⟩ := emptyBuffer_frame p s
  unfold transferJoin
  rw [h]
  exact ⟨_, _, rfl⟩

/-- A taint notice of a moved layer changes the check unit. -/
theorem noticeMove_frame (before after : Rect) (s : State) :
    ∃ check, noticeMove before after s = { s with check := check } := by
  unfold noticeMove
  split <;> exact ⟨_, rfl⟩

/-- What requests, expiries and time-outs leave as it is: the waiting commands, the reset line, the scan engine, the
store, the refresh engine and the model's own fields. -/
structure ServedFrame (s t : State) : Prop where
  pending : t.pending = s.pending
  resetN : t.resetN = s.resetN
  scan : t.scan = s.scan
  store : t.store = s.store
  refresh : t.refresh = s.refresh
  freeCount : t.freeCount = s.freeCount
  arrivals : t.arrivals = s.arrivals
  plan : t.session.plan = s.session.plan

theorem RequestChange.frame {moves : Prop} {p : PortId} {s u : State} (h : RequestChange moves p s u) : ServedFrame s u := by
  cases h with
  | join lease view =>
    obtain ⟨b, t, h⟩ := transferJoin_frame p
      (s.setSession p { state := .joined, lease, counter := lease, view, cause := .none })
    rw [h]
    exact ⟨rfl, rfl, rfl, rfl, rfl, rfl, rfl, rfl⟩
  | move l d x y before after =>
    obtain ⟨c, h⟩ := noticeMove_frame before after (s.setSlot l (.held .owned p { d with x, y }))
    rw [h]
    exact ⟨rfl, rfl, rfl, rfl, rfl, rfl, rfl, rfl⟩
  | grant h q =>
    obtain ⟨e, h⟩ := setGrant_frame h q .granted s
    rw [h]
    exact ⟨rfl, rfl, rfl, rfl, rfl, rfl, rfl, rfl⟩
  | seek c =>
    obtain ⟨b, t, h⟩ := setCursor_frame p c s
    rw [h]
    exact ⟨rfl, rfl, rfl, rfl, rfl, rfl, rfl, rfl⟩
  | _ => exact ⟨rfl, rfl, rfl, rfl, rfl, rfl, rfl, rfl⟩

theorem onExtents.frame {s : State} {a : Act} (h : onExtents s a) : ServedFrame s a.st := by
  obtain ⟨⟨e, b, t, h⟩, -⟩ := h
  rw [h]
  exact ⟨rfl, rfl, rfl, rfl, rfl, rfl, rfl, rfl⟩

theorem teardownStart_served (p : PortId) (cause : TeardownCause) (s : State) :
    ServedFrame s (teardownStart p cause s).st := by
  obtain ⟨⟨q, e, b, t, h, -⟩, -⟩ := teardownStart_frame p cause s
  rw [h]
  exact ⟨rfl, rfl, rfl, rfl, rfl, rfl, rfl, rfl⟩

theorem startJob_emptyBuffer_frame {p : PortId} {j : Job} {s u : State} (hu : u = s ∨ u = emptyBuffer p s) :
    ∃ banks transfer, startJob p j u =
      { s with ports := s.ports.set p { s.ports.get p with executing := true }, banks := banks, transfer := transfer } := by
  rcases hu with rfl | rfl
  · exact ⟨_, _, rfl⟩
  · obtain ⟨b, k, h, _⟩ := emptyBuffer_frame p s
    rw [h]
    exact ⟨_, _, rfl⟩

theorem Serves.frame {moves : Prop} {p : PortId} {s : State} {a : Act} (h : Serves moves p s a) : ServedFrame s a.st := by
  cases h with
  | change u result payload o l e hchange => exact hchange.frame
  | leave hjoined =>
    rw [Act.andThen_st]
    exact teardownStart_served p .leave s
  | free h e =>
    rw [Act.andThen_st]
    exact (releaseExtent_onExtents h s).frame
  | revoke h q =>
    rw [Act.andThen_st]
    exact (revokeGrant_onExtents h p q s).frame
  | begin j u hu =>
    obtain ⟨b, t, h⟩ := startJob_emptyBuffer_frame (j := j) hu
    rw [Act.quiet_st, h]
    exact ⟨rfl, rfl, rfl, rfl, rfl, rfl, rfl, rfl⟩
  | serve j bytes => exact (finishRead_onExtents p j bytes s).frame

/-- No request ends a session. -/
theorem Serves.endsNoSession {moves : Prop} {p : PortId} {s : State} {a : Act} (h : Serves moves p s a) : a.endsNoSession := by
  cases h with
  | change u result payload o l e hchange => exact (endsNoSession_answer _ _ _ _).sendAll _ _ _
  | leave hjoined => exact (endsNoSession_answer _ _ _ _).andThen (teardownStart_frame p .leave s).2
  | free h e => exact (endsNoSession_answer _ _ _ _).andThen (releaseExtent_onExtents h s).2
  | revoke h q => exact (endsNoSession_answer _ _ _ _).andThen (revokeGrant_onExtents h p q s).2
  | begin j u hu => exact Act.endsNoSession_quiet _
  | serve j bytes => exact (finishRead_onExtents p j bytes s).2

/-- Settling what ends no session changes the controllers and uses up one entry of `arrivals`. -/
theorem Act.endsNoSession.settle {a : Act} (h : a.endsNoSession) :
    a.settle = { a.st with ports := a.settle.ports, arrivals := a.st.arrivals.tail } := settle_eq_of_no_end h

end Sys2Proof.Machine
end

section
/-! SUPPORT. What a line start, a frame start, a blank start and a tick change, said once. -/

set_option Elab.async false

namespace Sys2Proof.Machine

/-! ### Lines -/

theorem noticeSlot_frame (line : Nat) (l : Fin 16) (s : State) :
    ∃ windows, noticeSlot line l s = { s with check := { s.check with windows := windows } } := by
  unfold noticeSlot
  split
  · exact ⟨_, rfl⟩
  · exact ⟨s.check.windows, rfl⟩

/-- Underruns change the windows and the underrun set, and send events. -/
theorem underrunSlot_frame (line : Nat) (l : Fin 16) (s : State) :
    (∃ windows underruns, (underrunSlot line l s).st =
      { s with check := { s.check with windows := windows }, scan := { s.scan with underruns := underruns } }) ∧
      (underrunSlot line l s).endsNoSession := by
  obtain ⟨w, h⟩ := noticeSlot_frame line l s
  unfold underrunSlot
  dsimp only
  rw [h]
  split
  · exact ⟨⟨w, _, rfl⟩, Act.endsNoSession_quiet _⟩
  · exact ⟨⟨w, _, rfl⟩, (Act.endsNoSession_quiet _).sendAll _ _ _⟩

theorem underruns_frame (line : Nat) (slots : List (Fin 16)) (s : State) :
    (∃ windows underruns, ((Act.quiet s).forEach slots fun l => underrunSlot line l).st =
      { s with check := { s.check with windows := windows }, scan := { s.scan with underruns := underruns } }) ∧
      ((Act.quiet s).forEach slots fun l => underrunSlot line l).endsNoSession :=
  Act.forEach_keeps (P := fun a => (∃ windows underruns, a.st =
      { s with check := { s.check with windows := windows }, scan := { s.scan with underruns := underruns } }) ∧
      a.endsNoSession) slots ⟨⟨s.check.windows, s.scan.underruns, rfl⟩, Act.endsNoSession_quiet s⟩
    fun l _ a ha => by
      obtain ⟨⟨w, u, ha⟩, hend⟩ := ha
      obtain ⟨⟨w', u', h⟩, hend'⟩ := underrunSlot_frame line l a.st
      exact ⟨⟨w', u', by rw [Act.andThen_st, h, ha]⟩, hend.andThen hend'⟩

theorem fetchNextLine_frame (line : Nat) (s : State) :
    ∃ records fetch, fetchNextLine line s =
      { s with scan := { s.scan with records := records, fetch := fetch } } := by
  unfold fetchNextLine
  split <;> exact ⟨_, _, rfl⟩

/-- What a line start changes: the windows, the banks, and of the scan engine the records, the fetch list, the underrun
set and the line. -/
theorem runLine_frame (line : Nat) (s : State) :
    (∃ windows banks records fetch underruns pixels, (runLine line s).st =
      { s with
        check := { s.check with windows := windows }, banks := banks
        scan := { s.scan with records := records, fetch := fetch, underruns := underruns, line := pixels } }) ∧
      (runLine line s).endsNoSession := by
  obtain ⟨⟨w, u, h⟩, hend⟩ := underruns_frame line (underrunSlots s) s
  obtain ⟨r, f, h'⟩ := fetchNextLine_frame line (dropFetch (fun l => (underrunSlots s).contains l)
    (composeAndFeed line (fun l => (underrunSlots s).contains l)
      ((Act.quiet s).forEach (underrunSlots s) fun l => underrunSlot line l).st))
  refine ⟨?_, hend⟩
  simp only [runLine, Act.change_st]
  rw [h', h]
  exact ⟨_, _, r, f, u, _, rfl⟩

/-- The state in which line 0 is taken: the new frame begun and the fetches of marked layers withdrawn. -/
def beforeLineZero (s : State) : State :=
  dropFetch (fun l => (beginWindows (beginFrame s)).scan.marks[l]) (beginWindows (beginFrame s))

theorem startFrame_eq (s : State) :
    startFrame s = ((runLine 0 (beforeLineZero s)).change countFrame).settleAndArbitrate := rfl

/-- What a frame start changes: the check unit, the banks, the scan engine with the timing and output of the plan in
force, the lease counters and the frames remaining of a vote. -/
theorem startFrame_frame (s : State) :
    ∃ check banks records fetch marks underruns pixels ports transfer, startFrame s =
      { s with
        check := check, banks := banks, ports := ports, transfer := transfer, arrivals := s.arrivals.tail
        session := (countFrame s).session
        scan := { (beginFrame s).scan with
          records := records, fetch := fetch, marks := marks, underruns := underruns, line := pixels } } := by
  obtain ⟨⟨w, b, r, f, u, x, h⟩, hend⟩ := runLine_frame 0 (beforeLineZero s)
  obtain ⟨b', f', t', harb, -⟩ := arbitrate_frame ((runLine 0 (beforeLineZero s)).change countFrame).settle
  rw [startFrame_eq, Act.settleAndArbitrate, harb, Act.endsNoSession.settle (a := (runLine 0 _).change countFrame) hend,
    Act.change_st, h]
  exact ⟨_, b', r, f', (beforeLineZero s).scan.marks, u, x, _, t', rfl⟩

/-- What a line start other than the frame's first changes. -/
theorem nextLine_frame (s : State) :
    ∃ windows banks records fetch underruns pixels ports transfer, nextLine s =
      { s with
        check := { s.check with windows := windows }, banks := banks, ports := ports, transfer := transfer
        arrivals := s.arrivals.tail
        scan := { s.scan.toLine .active (s.scan.lineNo + 1) with
          records := records, fetch := fetch, underruns := underruns, line := pixels } } := by
  obtain ⟨⟨w, b, r, f, u, x, h⟩, hend⟩ :=
    runLine_frame (s.scan.lineNo + 1) { s with scan := s.scan.toLine .active (s.scan.lineNo + 1) }
  have hsettle := hend.settle
  obtain ⟨b', f', t', harb, -⟩ := arbitrate_frame
    (runLine (s.scan.lineNo + 1) { s with scan := s.scan.toLine .active (s.scan.lineNo + 1) }).settle
  simp only [nextLine, Act.settleAndArbitrate]
  rw [harb, hsettle, h]
  exact ⟨w, b', r, f', u, x, _, t', rfl⟩

theorem lineZeroFetch_frame (s : State) :
    ∃ banks records fetch transfer, lineZeroFetch s =
      { s with
        banks := banks, transfer := transfer
        scan := { s.scan.toLine .blank (s.scan.timing.vblank - 1) with records := records, fetch := fetch } } := by
  obtain ⟨b, f, t, h, -⟩ := arbitrate_frame (fetchPoint s.session.plan.timing.width 0 (Vector.replicate 16 false)
    { s with scan := s.scan.toLine .blank (s.scan.timing.vblank - 1) })
  exact ⟨b, _, f, t, h⟩

/-! ### The blank start -/

theorem endWithdrawal_onExtents (old : Extent) (h : Fin 32) (p : PortId) (s : State) :
    onExtents s (endWithdrawal old h p s) := by
  unfold endWithdrawal
  split
  · exact onExtents_quiet s
  · split
    · refine onExtents.andThen ⟨(onExtents_of_frame (setGrant_frame h p .none s)).1, ?_⟩ (loseExtent_onExtents _ _ _ _)
      unfold withdrawalEvents
      split
      · simp [Act.endsNoSession]
      · split <;> simp [Act.endsNoSession]
    · exact onExtents_quiet s

theorem clearGrant_onExtents (h : Fin 32) (p : PortId) (s : State) : onExtents s (clearGrant h p s) := by
  unfold clearGrant
  split
  · exact onExtents_quiet s
  · split
    · exact onExtents_quiet s
    · exact (onExtents_of_frame (setGrant_frame h p .none s)).andThen (loseExtent_onExtents h .notGranted p _)

theorem extentBlank_onExtents (old : State) (h : Fin 32) (s : State) : onExtents s (extentBlank old h s) := by
  unfold extentBlank
  split
  · exact onExtents_quiet s
  · exact (((onExtents_quiet s).forEach _ fun p u => endWithdrawal_onExtents _ h p u).forEach _
      fun p u => clearGrant_onExtents h p u).andThen (releaseIfUnreferenced_onExtents h _)

theorem extentsBlank_onExtents (old s : State) : onExtents s (extentsBlank old s) :=
  onExtents.forEach _ (onExtents_of_frame ⟨_, rfl⟩) fun h u => extentBlank_onExtents old h u

theorem windowBlank_frame (n : Fin 8) (s : State) :
    (∃ windows, (windowBlank n s).st = { s with check := { s.check with windows := windows } }) ∧
      (windowBlank n s).endsNoSession := by
  unfold windowBlank
  split
  · exact ⟨⟨s.check.windows, rfl⟩, Act.endsNoSession_quiet s⟩
  · split
    · refine ⟨⟨_, rfl⟩, fun q hq => ?_⟩
      obtain ⟨m, hm, hend⟩ := List.mem_map.1 hq
      dsimp only [windowEvents] at hm
      rcases List.mem_append.1 hm with hm | hm
      · split at hm
        · obtain rfl := List.mem_singleton.1 hm
          cases hend
        · cases hm
      · split at hm
        · obtain ⟨v, -, rfl⟩ := List.mem_map.1 hm
          cases hend
        · cases hm
    · exact ⟨⟨s.check.windows, rfl⟩, Act.endsNoSession_quiet s⟩

theorem windowsBlank_frame (s : State) :
    (∃ windows, (windowsBlank s).st = { s with check := { s.check with windows := windows } }) ∧
      (windowsBlank s).endsNoSession :=
  Act.forEach_keeps (P := fun a => (∃ windows, a.st = { s with check := { s.check with windows := windows } }) ∧
      a.endsNoSession) _ ⟨⟨s.check.windows, rfl⟩, Act.endsNoSession_quiet s⟩ fun n _ a ha => by
    obtain ⟨⟨w, ha⟩, hend⟩ := ha
    obtain ⟨⟨w', h⟩, hend'⟩ := windowBlank_frame n a.st
    exact ⟨⟨w', by rw [Act.andThen_st, h, ha]⟩, hend.andThen hend'⟩

/-- The adoption leaves the plan state as it was, or makes it STEADY with the plan in force or the one proposed. -/
theorem adoptionBlank_frame (s : State) :
    ((∃ plan planState, (adoptionBlank s).st =
        { s with session := { s.session with plan := plan, planState := planState } }) ∧
      (adoptionBlank s).endsNoSession) := by
  unfold adoptionBlank
  split
  · split
    · exact ⟨⟨s.session.plan, _, rfl⟩, (Act.endsNoSession_quiet _).sendAll _ _ _⟩
    · exact ⟨⟨_, _, rfl⟩, (Act.endsNoSession_quiet _).sendAll _ _ _⟩
  · exact ⟨⟨s.session.plan, s.session.planState, rfl⟩, Act.endsNoSession_quiet s⟩

/-- The state of a blank start before the adoption: what each block makes of its part. -/
theorem beforeAdoption_frame (s : State) :
    ∃ extents banks transfer windows,
      (((((commitBlank { s with scan := s.scan.toLine .blank 0 }).andThen (extentsBlank s)).change
        (paletteBlank (published s) (teardownEnds s))).andThen windowsBlank).andThen (sessionsBlank s)).st =
      { s with
        scan := s.scan.toLine .blank 0
        commit := (commitBlank s).st.commit
        extents := extents, banks := banks, transfer := transfer
        palette := (paletteBlank (published s) (teardownEnds s) s).palette
        check := { s.check with windows := windows } } := by
  obtain ⟨⟨e, b, t, he⟩, -⟩ := extentsBlank_onExtents s (commitBlank { s with scan := s.scan.toLine .blank 0 }).st
  obtain ⟨⟨w, hw⟩, -⟩ := windowsBlank_frame (paletteBlank (published s) (teardownEnds s)
    (extentsBlank s (commitBlank { s with scan := s.scan.toLine .blank 0 }).st).st)
  refine ⟨e, b, t, w, ?_⟩
  simp only [Act.andThen_st, Act.change_st, sessionsBlank]
  rw [hw, he]
  rfl

/-- The state the blocks leave at a blank start. -/
theorem blankAct_frame (s : State) :
    ∃ extents banks transfer windows plan planState, (blankAct s).st =
      { s with
        scan := s.scan.toLine .blank 0
        commit := (commitBlank s).st.commit
        extents := extents, banks := banks, transfer := transfer
        palette := (paletteBlank (published s) (teardownEnds s) s).palette
        check := { s.check with windows := windows }
        session := { s.session with plan := plan, planState := planState } } := by
  obtain ⟨e, b, t, w, h⟩ := beforeAdoption_frame s
  obtain ⟨⟨k, q, ha⟩, -⟩ := adoptionBlank_frame
    (((((commitBlank { s with scan := s.scan.toLine .blank 0 }).andThen (extentsBlank s)).change
      (paletteBlank (published s) (teardownEnds s))).andThen windowsBlank).andThen (sessionsBlank s)).st
  refine ⟨e, b, t, w, k, q, ?_⟩
  rw [blankAct, Act.andThen_st, ha, h]

theorem settleAndArbitrate_frame (a : Act) :
    ∃ ports records banks fetch transfer, a.settleAndArbitrate =
      { a.st with
        ports := ports, session := { a.st.session with records := records }, banks := banks, transfer := transfer
        scan := { a.st.scan with fetch := fetch }, arrivals := a.st.arrivals.tail } := by
  obtain ⟨po, re, h⟩ := settle_frame a
  obtain ⟨b, f, t, h', -⟩ := arbitrate_frame a.settle
  exact ⟨po, re, b, f, t, by rw [Act.settleAndArbitrate, h', h]⟩

/-! ### Ticks -/

/-- What a tick changes: the refresh state of its bank, and for a lost row its bytes and what is told of it. -/
theorem tickBank_frame (b : BankId) (s : State) :
    (∃ extents banks transfer store freeCount, (tickBank b s).st =
      { s with
        refresh := s.refresh.set b (s.refresh.get b).tick
        extents := extents, banks := banks, transfer := transfer, store := store, freeCount := freeCount } ∧
      (store = s.store ∨
        store = (scrambleRow (globalRowOf b (s.refresh.get b).due) s).store)) ∧
      (tickBank b s).endsNoSession := by
  unfold tickBank
  dsimp only
  split
  · obtain ⟨⟨e, k, t, h⟩, hend⟩ := lostRow_onExtents (globalRowOf b (s.refresh.get b).due)
      (scrambleRow (globalRowOf b (s.refresh.get b).due) (s.setRefresh b (s.refresh.get b).tick))
    exact ⟨⟨e, k, t, _, _, by rw [h]; rfl, .inr rfl⟩, hend⟩
  · exact ⟨⟨_, _, _, _, _, rfl, .inl rfl⟩, Act.endsNoSession_quiet _⟩

end Sys2Proof.Machine
end

section
/-! SUPPORT. Invariants of every step: what an invariant has to withstand, and that a step then keeps it. -/

set_option Elab.async false

namespace Sys2Proof.Machine

/-- What an invariant has to withstand for a command to keep it: the events of the part and the requests, each where it
has an effect. What only one command does, it has to withstand only at that command. -/
structure KeptByCommand (c : Instr) (I : State → Prop) : Prop where
  resetAssert : (∃ ns, c = .resetAssert ns) → ∀ s, s.resetN = true → I s → I (assertReset s)
  resetRelease : c = .resetRelease → ∀ s, s.resetN = false → I s → I (releaseReset s)
  select : ∀ s p v, I s → I (s.setPort p { s.ports.get p with selHigh := v })
  transactionStart : ∀ s p, I s → I (startTransaction p s)
  transactionEnd : ∀ s p t inbound, I s → I (endTransaction p t inbound s)
  expiry : ∀ s p, s.resetN = true → s.sessionState p = .joined → I s → I (expirePort p s)
  timeout : ∀ s, s.resetN = true → I s → I (timeOutVote s)
  request : ∀ s p r a, s.resetN = true → (s.ports.get p).nextRequest = some r → Serves (∃ q, c = .moveNow q) p s a →
    I s → I a.settle
  grants : ∀ s, I s → I (arbitrate s)
  lineZero : ∀ s, s.resetN = true → lineZeroDue s = true → I s → I (lineZeroFetch s)
  frame : c = .frameStart → ∀ s, s.resetN = true → frameStartDue s = true → I s → I (startFrame s)
  line : ∀ s, s.resetN = true → lineStartDue s = true → I s → I (nextLine s)
  blank : c = .blankStart → ∀ s, s.resetN = true → blankStartDue s = true → I s → I (startBlank s)
  tick : (∃ b, c = .tick b) → ∀ s b, s.resetN = true → I s → I (tickBank b s).settleAndArbitrate
  completion : (∃ b, c = .accessCompletion b) → ∀ s b a, s.resetN = true → (s.banks.get b).inFlight = some a → I s →
    I (completeAccess b a s).settleAndArbitrate

/-- What an invariant has to withstand for every step to keep it. -/
structure KeptByEvents (I : State → Prop) : Prop where
  pending : ∀ s l, I s → I { s with pending := l }
  pixel : ∀ s, s.resetN = true → I s → I { s with scan := s.scan.nextPixel }
  resetAssert : ∀ s, s.resetN = true → I s → I (assertReset s)
  resetRelease : ∀ s, s.resetN = false → I s → I (releaseReset s)
  select : ∀ s p v, I s → I (s.setPort p { s.ports.get p with selHigh := v })
  transactionStart : ∀ s p, I s → I (startTransaction p s)
  transactionEnd : ∀ s p t inbound, I s → I (endTransaction p t inbound s)
  expiry : ∀ s p, s.resetN = true → s.sessionState p = .joined → I s → I (expirePort p s)
  timeout : ∀ s, s.resetN = true → I s → I (timeOutVote s)
  request : ∀ s p r a, s.resetN = true → (s.ports.get p).nextRequest = some r → Serves True p s a → I s → I a.settle
  grants : ∀ s, I s → I (arbitrate s)
  lineZero : ∀ s, s.resetN = true → lineZeroDue s = true → I s → I (lineZeroFetch s)
  frame : ∀ s, s.resetN = true → frameStartDue s = true → I s → I (startFrame s)
  line : ∀ s, s.resetN = true → lineStartDue s = true → I s → I (nextLine s)
  blank : ∀ s, s.resetN = true → blankStartDue s = true → I s → I (startBlank s)
  tick : ∀ s b, s.resetN = true → I s → I (tickBank b s).settleAndArbitrate
  completion : ∀ s b a, s.resetN = true → (s.banks.get b).inFlight = some a → I s →
    I (completeAccess b a s).settleAndArbitrate

theorem sessionState_of_expiryDue {s : State} {p : PortId} (h : s.expiryDue p = true) : s.sessionState p = .joined := by
  simp only [State.expiryDue, Session.expiryDue, Bool.and_eq_true, decide_eq_true_eq] at h
  exact h.1.1

/-- An expiry, settled: what it leaves as it is. -/
theorem expirePort_frame (p : PortId) (s : State) :
    ∃ q extents banks fetch transfer ports, expirePort p s =
      { s with
        session := { (sessionTeardown p .expiry s).session with planState := q }
        commit := (commitTeardown p s).commit, check := (checkTeardown p s).check
        extents := extents, banks := banks, transfer := transfer, ports := ports
        scan := { s.scan with fetch := fetch }, arrivals := s.arrivals.tail } ∧
      (q = s.session.planState ∨ q = .steady) := by
  obtain ⟨⟨q, e, b, t, h, hq⟩, hend⟩ :=
    teardownStart_frame p .expiry (s.setPort p (s.ports.get p).expire)
  obtain ⟨b', f, t', h', -⟩ :=
    arbitrate_frame (teardownStart p .expiry (s.setPort p (s.ports.get p).expire)).settle
  rw [expirePort, Act.settleAndArbitrate, h', hend.settle, h]
  exact ⟨q, e, b', f, t', _, rfl, hq⟩

/-- A time-out, settled: what it leaves as it is. -/
theorem timeOutVote_frame (s : State) :
    timeOutVote s = s ∨ ∃ ports, timeOutVote s =
      { s with session := { s.session with planState := .steady }, ports := ports, arrivals := s.arrivals.tail } := by
  unfold timeOutVote
  split
  · rw [Act.endsNoSession.settle ((Act.endsNoSession_quiet _).sendAll _ _ _)]
    exact .inr ⟨_, rfl⟩
  · exact .inl rfl

@[simp] theorem expirePort_resetN (p : PortId) (s : State) : (expirePort p s).resetN = s.resetN := by
  obtain ⟨_, _, _, _, _, _, h, -⟩ := expirePort_frame p s
  rw [h]

@[simp] theorem timeOutVote_resetN (s : State) : (timeOutVote s).resetN = s.resetN := by
  rcases timeOutVote_frame s with h | ⟨_, h⟩ <;> rw [h]

/-- What withstands expiries and the time-out withstands all that a frame start leaves due. -/
theorem takeDue_keeps {I : State → Prop} (expiry : ∀ s p, s.resetN = true → s.sessionState p = .joined → I s →
    I (expirePort p s)) (timeout : ∀ s, s.resetN = true → I s → I (timeOutVote s)) {s : State}
    (hreset : s.resetN = true) (h : I s) : (takeDue s).resetN = true ∧ I (takeDue s) := by
  have hexpiries : ∀ (l : List PortId) (u : State), u.resetN = true ∧ I u →
      (l.foldl takeExpiry u).resetN = true ∧ I (l.foldl takeExpiry u) := by
    intro l
    induction l with
    | nil => exact fun u hu => hu
    | cons p l ih =>
      intro u hu
      refine ih _ ?_
      unfold takeExpiry
      split
      · rename_i hdue
        exact ⟨(expirePort_resetN p u).trans hu.1, expiry u p hu.1 (sessionState_of_expiryDue hdue) hu.2⟩
      · exact hu
  obtain ⟨hr, hI⟩ := hexpiries allPorts s ⟨hreset, h⟩
  unfold takeDue takeTimeout
  split
  · exact ⟨(timeOutVote_resetN _).trans hr, timeout _ hr hI⟩
  · exact ⟨hr, hI⟩

theorem refusalBySession_joinedOnly {state : SessionState} (h : refusalBySession .joinedOnly state = none) :
    state = .joined := by
  cases state <;> simp_all [refusalBySession]

theorem refusalBySession_unlessDraining {state : SessionState} (h : refusalBySession .unlessDraining state = none) :
    state ≠ .draining := by
  cases state <;> simp_all [refusalBySession]

namespace KeptByCommand
variable {c : Instr} {I : State → Prop} (K : KeptByCommand c I)
include K

theorem whenRunning {f : State → State} (hf : ∀ u, u.resetN = true → I u → I (f u)) {s : State} (h : I s) :
    I (whenRunning f s) := by
  unfold Machine.whenRunning
  split
  · rename_i hreset
    obtain ⟨hr, hI⟩ := takeDue_keeps K.expiry K.timeout hreset h
    exact hf _ hr hI
  · exact h

/-- A request row keeps the invariant when its block's part is one of the executions listed. -/
theorem serve {p : PortId} {w : RequestRow} {v : Service} {body : List Byte → State → Act} {finish : Act → State}
    (hfinish : finish = Act.settle ∨ finish = Act.settleAndArbitrate)
    (hbody : ∀ payload u, refusalBySession v (u.sessionState p) = none →
      Serves (∃ q, c = .moveNow q) p u (body payload u)) {s : State} (h : I s) : I (serve p w v body finish s) := by
  have hdone : ∀ a : Act, I a.settle → I (finish a) := by
    rcases hfinish with rfl | rfl
    · exact fun _ ha => ha
    · exact fun a ha => K.grants _ ha
  refine K.whenRunning (fun u hr hu => ?_) h
  split
  · exact hu
  · rename_i r hnext
    split
    · refine hdone _ (K.request u p r _ hr hnext ?_ hu)
      unfold execute
      split
      · split
        · exact .answer _ _
        · exact hbody _ u ‹_›
      · exact .answer _ _
    · exact hu

theorem joinedOnly {p : PortId} {w : RequestRow} {body : List Byte → State → Act} {finish : Act → State}
    (hfinish : finish = Act.settle ∨ finish = Act.settleAndArbitrate)
    (hbody : ∀ payload u, u.sessionState p = .joined → Serves (∃ q, c = .moveNow q) p u (body payload u)) {s : State}
    (h : I s) : I (Machine.serve p w .joinedOnly body finish s) :=
  K.serve hfinish (fun payload u hu => hbody payload u (refusalBySession_joinedOnly hu)) h

theorem unknown (p : PortId) {s : State} (h : I s) : I (serveUnknown p s) := by
  refine K.whenRunning (fun u hr hu => ?_) h
  split
  · exact hu
  · rename_i r hnext
    split
    · exact hu
    · exact K.request u p r _ hr hnext (.answer _ _) hu

/-- The command keeps the invariant. -/
theorem exec {s t : State} (h : I s) (hexec : exec c s = .next t) : I t := by
  have next : ∀ {u : State}, Machine.exec c s = .next u → I u → I t := fun hu hI => by
    obtain rfl := Host.Outcome.next.inj (hu.symm.trans hexec)
    exact hI
  have settled : Act.settle = Act.settle ∨ Act.settle = Act.settleAndArbitrate := .inl rfl
  have arbitrated : Act.settleAndArbitrate = Act.settle ∨ Act.settleAndArbitrate = Act.settleAndArbitrate := .inr rfl
  cases c with
  | resetAssert ns =>
    refine next rfl ?_
    split
    · exact K.resetAssert ⟨ns, rfl⟩ s (by simp_all) h
    · exact h
  | resetRelease =>
    refine next rfl ?_
    split
    · exact h
    · exact K.resetRelease rfl s (by simp_all) h
  | transactionStart p =>
    refine next rfl ?_
    split
    · split
      · exact K.transactionStart _ p (takeDue_keeps K.expiry K.timeout ‹_› h).2
      · exact K.select s p false h
    · exact K.whenRunning (fun _ _ hu => hu) h
  | transactionEnd p inbound stray =>
    refine next rfl ?_
    split
    · exact K.whenRunning (fun _ _ hu => hu) h
    · split
      · have hI := (takeDue_keeps K.expiry K.timeout ‹_› h).2
        dsimp only
        split
        · exact K.transactionEnd _ p _ inbound hI
        · exact K.select _ p true hI
      · exact K.select s p true h
  | unknownCode p => exact next rfl (K.unknown p h)
  | status p => exact next rfl (K.serve settled (fun _ _ _ => statusBody_serves) h)
  | join p =>
    exact next rfl (K.serve settled (fun _ _ hu => joinBody_serves (refusalBySession_unlessDraining hu)) h)
  | leave p => exact next rfl (K.joinedOnly arbitrated (fun _ _ hu => leaveBody_serves hu) h)
  | getPlan p => exact next rfl (K.serve settled (fun _ _ _ => getPlanBody_serves) h)
  | propose p => exact next rfl (K.joinedOnly settled (fun _ _ _ => proposeBody_serves) h)
  | vote p => exact next rfl (K.joinedOnly settled (fun _ _ _ => voteBody_serves) h)
  | claimLayer p => exact next rfl (K.joinedOnly settled (fun _ _ hu => claimLayerBody_serves hu) h)
  | getLayer p => exact next rfl (K.joinedOnly settled (fun _ _ _ => getLayerBody_serves) h)
  | setView p => exact next rfl (K.joinedOnly settled (fun _ _ _ => setViewBody_serves) h)
  | setLayer p => exact next rfl (K.joinedOnly settled (fun _ _ _ => stageBody_serves) h)
  | move p => exact next rfl (K.joinedOnly settled (fun _ _ _ => stageBody_serves) h)
  | showLayer p => exact next rfl (K.joinedOnly settled (fun _ _ _ => stageBody_serves) h)
  | hideLayer p => exact next rfl (K.joinedOnly settled (fun _ _ _ => stageBody_serves) h)
  | setDepth p => exact next rfl (K.joinedOnly settled (fun _ _ _ => stageBody_serves) h)
  | setSource p => exact next rfl (K.joinedOnly settled (fun _ _ _ => stageBody_serves) h)
  | setColours p => exact next rfl (K.joinedOnly settled (fun _ _ _ => stageBody_serves) h)
  | setClip p => exact next rfl (K.joinedOnly settled (fun _ _ _ => stageBody_serves) h)
  | setPaletteBase p => exact next rfl (K.joinedOnly settled (fun _ _ _ => stageBody_serves) h)
  | publishPalette p => exact next rfl (K.joinedOnly settled (fun _ _ _ => stageBody_serves) h)
  | retireLayer p => exact next rfl (K.joinedOnly settled (fun _ _ _ => stageBody_serves) h)
  | closeBatch p => exact next rfl (K.joinedOnly settled (fun _ _ _ => closeBatchBody_serves) h)
  | abandonBatch p => exact next rfl (K.joinedOnly settled (fun _ _ _ => abandonBatchBody_serves) h)
  | moveNow p => exact next rfl (K.joinedOnly settled (fun _ _ _ => moveNowBody_serves ⟨p, rfl⟩) h)
  | defineWindow p => exact next rfl (K.joinedOnly settled (fun _ _ _ => defineWindowBody_serves) h)
  | changeWindow p => exact next rfl (K.joinedOnly settled (fun _ _ _ => changeWindowBody_serves) h)
  | arm p => exact next rfl (K.joinedOnly settled (fun _ _ _ => armBody_serves) h)
  | disarm p => exact next rfl (K.joinedOnly settled (fun _ _ _ => disarmBody_serves) h)
  | freeWindow p => exact next rfl (K.joinedOnly settled (fun _ _ _ => freeWindowBody_serves) h)
  | getWindow p => exact next rfl (K.joinedOnly settled (fun _ _ _ => getWindowBody_serves) h)
  | allocExtent p => exact next rfl (K.joinedOnly arbitrated (fun _ _ _ => allocExtentBody_serves) h)
  | freeExtent p => exact next rfl (K.joinedOnly arbitrated (fun _ _ _ => freeExtentBody_serves) h)
  | grant p => exact next rfl (K.joinedOnly settled (fun _ _ _ => grantBody_serves) h)
  | revoke p => exact next rfl (K.joinedOnly arbitrated (fun _ _ _ => revokeBody_serves) h)
  | mend p => exact next rfl (K.joinedOnly settled (fun _ _ _ => mendBody_serves) h)
  | getExtent p => exact next rfl (K.joinedOnly settled (fun _ _ _ => getExtentBody_serves) h)
  | seek p => exact next rfl (K.joinedOnly settled (fun _ _ _ => seekBody_serves) h)
  | write p => exact next rfl (K.joinedOnly arbitrated (fun _ _ _ => writeBody_serves) h)
  | read p => exact next rfl (K.joinedOnly arbitrated (fun _ _ _ => readBody_serves) h)
  | update p => exact next rfl (K.joinedOnly arbitrated (fun _ _ _ => updateBody_serves) h)
  | claimPalette p => exact next rfl (K.joinedOnly settled (fun _ _ _ => claimPaletteBody_serves) h)
  | releasePalette p => exact next rfl (K.joinedOnly settled (fun _ _ _ => releasePaletteBody_serves) h)
  | paletteWrite p => exact next rfl (K.joinedOnly settled (fun _ _ _ => paletteWriteBody_serves) h)
  | paletteRead p => exact next rfl (K.joinedOnly settled (fun _ _ _ => paletteReadBody_serves) h)
  | leaseExpiry p =>
    refine next rfl ?_
    unfold Machine.takeExpiry
    split
    · split
      · exact K.expiry s p ‹_› (sessionState_of_expiryDue ‹_›) h
      · exact h
    · exact h
  | voteTimeout =>
    refine next rfl ?_
    unfold takeTimeout
    split
    · split
      · exact K.timeout s ‹_› h
      · exact h
    · exact h
  | lineZeroFetch =>
    refine next rfl (K.whenRunning (fun u hr hu => ?_) h)
    split
    · exact K.lineZero u hr ‹_› hu
    · exact hu
  | frameStart =>
    refine next rfl (K.whenRunning (fun u hr hu => ?_) h)
    split
    · exact K.frame rfl u hr ‹_› hu
    · exact hu
  | lineStart =>
    refine next rfl (K.whenRunning (fun u hr hu => ?_) h)
    split
    · exact K.line u hr ‹_› hu
    · exact hu
  | blankStart =>
    refine next rfl (K.whenRunning (fun u hr hu => ?_) h)
    split
    · exact K.blank rfl u hr ‹_› hu
    · exact hu
  | tick b => exact next rfl (K.whenRunning (fun u hr hu => K.tick ⟨b, rfl⟩ u b hr hu) h)
  | accessCompletion b =>
    refine next rfl (K.whenRunning (fun u hr hu => ?_) h)
    split
    · exact K.completion ⟨b, rfl⟩ u b _ hr ‹_› hu
    · exact hu

end KeptByCommand

theorem RequestChange.mono {moves moves' : Prop} {p : PortId} {s u : State} (hmoves : moves → moves')
    (h : RequestChange moves p s u) : RequestChange moves' p s u := by
  cases h with
  | none => exact .none
  | join lease view hstate => exact .join lease view hstate
  | setView view => exact .setView view
  | propose payload k q hdecode hvalid hq => exact .propose payload k q hdecode hvalid hq
  | reject => exact .reject
  | accept q hvoting => exact .accept q hvoting
  | claimLayer l z hjoined hfree hband hdepth => exact .claimLayer l z hjoined hfree hband hdepth
  | stage e hroom => exact .stage e hroom
  | close target hopen => exact .close target hopen
  | abandon => exact .abandon
  | move l d x y before after hslot h => exact .move l d x y before after hslot (hmoves h)
  | window n w => exact .window n w
  | alloc h g n hrows hfree hfit => exact .alloc h g n hrows hfree hfit
  | grant h q => exact .grant h q
  | mend h e hextent => exact .mend h e hextent
  | seek c => exact .seek c
  | claimPalette first count hfree => exact .claimPalette first count hfree
  | releasePalette first count => exact .releasePalette first count
  | paletteWrite b shadow howner => exact .paletteWrite b shadow howner

theorem Serves.mono {moves moves' : Prop} {p : PortId} {s : State} {a : Act} (hmoves : moves → moves')
    (h : Serves moves p s a) : Serves moves' p s a := by
  cases h with
  | change u result payload o l e hchange => exact .change u result payload o l e (hchange.mono hmoves)
  | leave hjoined => exact .leave hjoined
  | free h e hextent hunused => exact .free h e hextent hunused
  | revoke h q => exact .revoke h q
  | begin j u hu => exact .begin j u hu
  | serve j bytes => exact .serve j bytes

namespace KeptByEvents
variable {I : State → Prop} (K : KeptByEvents I)
include K

theorem toCommand (c : Instr) : KeptByCommand c I where
  resetAssert _ := K.resetAssert
  resetRelease _ := K.resetRelease
  select := K.select
  transactionStart := K.transactionStart
  transactionEnd := K.transactionEnd
  expiry := K.expiry
  timeout := K.timeout
  request s p r a hr hnext ha := K.request s p r a hr hnext (ha.mono fun _ => trivial)
  grants := K.grants
  lineZero := K.lineZero
  frame _ := K.frame
  line := K.line
  blank _ := K.blank
  tick _ := K.tick
  completion _ := K.completion

/-- Every step keeps the invariant. -/
theorem step {s t : State} (h : I s) (hstep : step s = .next t) : I t := by
  unfold Machine.step at hstep
  split at hstep
  · obtain rfl := Host.Outcome.next.inj hstep
    unfold idle
    split
    · exact K.pixel s ‹_› h
    · exact h
  · exact (K.toCommand _).exec (K.pending s _ h) hstep

end KeptByEvents

end Sys2Proof.Machine
end

section
/-! PROOF. The store's canonical form and the owed lists at every step (R125, R134, R137). -/

set_option Elab.async false

namespace Sys2Proof.Machine

section
variable (a : Act)

@[simp] theorem settle_commit : a.settle.commit = a.st.commit := by obtain ⟨_, _, h⟩ := settle_frame a; rw [h]
@[simp] theorem settle_scan : a.settle.scan = a.st.scan := by obtain ⟨_, _, h⟩ := settle_frame a; rw [h]
@[simp] theorem settle_check : a.settle.check = a.st.check := by obtain ⟨_, _, h⟩ := settle_frame a; rw [h]
@[simp] theorem settle_extents : a.settle.extents = a.st.extents := by obtain ⟨_, _, h⟩ := settle_frame a; rw [h]
@[simp] theorem settle_store : a.settle.store = a.st.store := by obtain ⟨_, _, h⟩ := settle_frame a; rw [h]
@[simp] theorem settle_banks : a.settle.banks = a.st.banks := by obtain ⟨_, _, h⟩ := settle_frame a; rw [h]
@[simp] theorem settle_refresh : a.settle.refresh = a.st.refresh := by obtain ⟨_, _, h⟩ := settle_frame a; rw [h]
@[simp] theorem settle_transfer : a.settle.transfer = a.st.transfer := by obtain ⟨_, _, h⟩ := settle_frame a; rw [h]
@[simp] theorem settle_palette : a.settle.palette = a.st.palette := by obtain ⟨_, _, h⟩ := settle_frame a; rw [h]
@[simp] theorem settle_resetN : a.settle.resetN = a.st.resetN := by obtain ⟨_, _, h⟩ := settle_frame a; rw [h]
@[simp] theorem settle_pending : a.settle.pending = a.st.pending := by obtain ⟨_, _, h⟩ := settle_frame a; rw [h]
@[simp] theorem settle_freeCount : a.settle.freeCount = a.st.freeCount := by obtain ⟨_, _, h⟩ := settle_frame a; rw [h]
@[simp] theorem settle_plan : a.settle.session.plan = a.st.session.plan := by obtain ⟨_, _, h⟩ := settle_frame a; rw [h]
@[simp] theorem settle_planState : a.settle.session.planState = a.st.session.planState := by
  obtain ⟨_, _, h⟩ := settle_frame a; rw [h]

end

/-- The inbound bytes of a transaction change the controllers and the session records. -/
theorem takeInbound_frame (p : PortId) (bytes : List Byte) (s : State) :
    ∃ ports records, takeInbound p bytes s =
      { s with ports := ports, session := { s.session with records := records } } := by
  unfold takeInbound
  split
  · exact ⟨s.ports, s.session.records, rfl⟩
  · exact ⟨s.ports, s.session.records, rfl⟩
  · exact ⟨_, s.session.records, rfl⟩
  · simp only [acceptRequest, reloadLease]
    split
    · exact ⟨_, s.session.records, rfl⟩
    · split
      · exact ⟨_, _, rfl⟩
      · exact ⟨_, s.session.records, rfl⟩

/-- The transaction's end changes the controllers and the session records. -/
theorem endTransaction_frame (p : PortId) (t : Transaction) (bytes : List Byte) (s : State) :
    ∃ ports records, endTransaction p t bytes s =
      { s with ports := ports, session := { s.session with records := records } } := by
  unfold endTransaction
  dsimp only
  generalize (if t.delivered bytes.length = true then _ else _ : PortController) = c
  obtain ⟨po, re, h⟩ := takeInbound_frame p bytes (s.setPort p c)
  exact ⟨po, re, h⟩

/-- What a statement about the store and the refresh engine alone has to withstand: the resets, a tick and an access
completion; no other event changes either. -/
theorem keptByEvents_of_store {I : State → Prop}
    (hI : ∀ s t, t.store = s.store → t.refresh = s.refresh → I s → I t)
    (hassert : ∀ s, I s → I (assertReset s)) (hrelease : ∀ s, I s → I (releaseReset s))
    (htick : ∀ s b, I s → I (tickBank b s).st) (hcompletion : ∀ s b a, I s → I (completeAccess b a s).settleAndArbitrate) :
    KeptByEvents I where
  pending s l := hI _ _ rfl rfl
  pixel s _ := hI _ _ rfl rfl
  resetAssert s _ := hassert s
  resetRelease s _ := hrelease s
  select s p v := hI _ _ rfl rfl
  transactionStart s p := hI _ _ rfl rfl
  transactionEnd s p t inbound := by
    obtain ⟨_, _, h⟩ := endTransaction_frame p t inbound s
    rw [h]
    exact hI _ _ rfl rfl
  expiry s p _ _ := by
    obtain ⟨_, _, _, _, _, _, h, -⟩ := expirePort_frame p s
    rw [h]
    exact hI _ _ rfl rfl
  timeout s _ := by
    rcases timeOutVote_frame s with h | ⟨_, h⟩ <;> rw [h]
    · exact id
    · exact hI _ _ rfl rfl
  request s p r a _ _ ha := hI _ _ ((settle_store a).trans ha.frame.store) ((settle_refresh a).trans ha.frame.refresh)
  grants s := hI _ _ (arbitrate_store s) (arbitrate_refresh s)
  lineZero s _ _ := by
    obtain ⟨_, _, _, _, h⟩ := lineZeroFetch_frame s
    rw [h]
    exact hI _ _ rfl rfl
  frame s _ _ := by
    obtain ⟨_, _, _, _, _, _, _, _, _, h⟩ := startFrame_frame s
    rw [h]
    exact hI _ _ rfl rfl
  line s _ _ := by
    obtain ⟨_, _, _, _, _, _, _, _, h⟩ := nextLine_frame s
    rw [h]
    exact hI _ _ rfl rfl
  blank s _ _ := by
    obtain ⟨_, _, _, _, _, h⟩ := settleAndArbitrate_frame (blankAct s)
    obtain ⟨_, _, _, _, _, _, h'⟩ := blankAct_frame s
    rw [startBlank, h, h']
    exact hI _ _ rfl rfl
  tick s b _ hs := by
    obtain ⟨_, _, _, _, _, h⟩ := settleAndArbitrate_frame (tickBank b s)
    rw [h]
    exact hI (tickBank b s).st _ rfl rfl (htick s b hs)
  completion s b a _ _ := hcompletion s b a

/-! ### The store -/

theorem Store.complete_wf {m : Store} (a : Access) (h : Memory.wf m.cells = true) :
    Memory.wf (m.complete a).cells = true := by
  unfold Store.complete
  split
  · exact h
  · exact Store.writeAt_wf _ _ _ h
  · exact Store.writeAt_wf _ _ _ h
  · exact h

theorem storeInv_keptByEvents : KeptByEvents fun s => storeInv s = true := by
  refine keptByEvents_of_store (fun s t hstore _ hs => by rw [storeInv, hstore]; exact hs) (fun _ _ => Memory.wf_nil)
    (fun _ _ => Memory.wf_nil) (fun s b hs => ?_) fun s b a hs => ?_
  · obtain ⟨⟨_, _, _, store, _, h, hstore⟩, -⟩ := tickBank_frame b s
    rw [h]
    rcases hstore with hstore | hstore
    · exact (congrArg (fun m : Store => Memory.wf m.cells) hstore).trans hs
    · exact (congrArg (fun m : Store => Memory.wf m.cells) hstore).trans (Store.writeAt_wf _ _ _ hs)
  · obtain ⟨_, _, _, _, _, h⟩ := completion_frame b a s
    rw [h]
    exact Store.complete_wf a hs

/-! ### The owed lists -/

/-- What R134 and R137 say of a bank's refresh state. -/
theorem refreshBankInv_iff {r : RefreshBank} : refreshBankInv r = true ↔
    r.owed.length ≤ 8 ∧ r.owed.Nodup ∧ (∀ x ∈ r.owed, r.fresh.getLsb x = false) ∧ r.request = r.owed.head? := by
  simp [refreshBankInv, and_assoc]

theorem RefreshBank.withFresh_false_getLsb (r : RefreshBank) (x y : Fin 1024) :
    (r.withFresh x false).fresh.getLsb y = (r.fresh.getLsb y && !decide (y = x)) := by
  have hbit : (BitVec.twoPow 1024 x.val).getLsb y = decide (y = x) :=
    (BitVec.getElem_twoPow y.isLt).trans (decide_eq_decide.2 (by rw [Fin.ext_iff, eq_comm]))
  rw [← hbit]
  show (r.fresh &&& ~~~(BitVec.twoPow 1024 x.val))[y.val] = _
  rw [BitVec.getElem_and, BitVec.getElem_not]
  rfl

@[simp] theorem RefreshBank.withFresh_owed (r : RefreshBank) (x : Fin 1024) (v : Bool) :
    (r.withFresh x v).owed = r.owed := rfl

@[simp] theorem RefreshBank.withFresh_request (r : RefreshBank) (x : Fin 1024) (v : Bool) :
    (r.withFresh x v).request = r.request := rfl

/-- Asking makes the request name the oldest row owed, when there was none or it did already. -/
theorem RefreshBank.ask_inv {r : RefreshBank} (hlength : r.owed.length ≤ 8) (hnodup : r.owed.Nodup)
    (hfresh : ∀ x ∈ r.owed, r.fresh.getLsb x = false) (hrequest : r.request = none ∨ r.request = r.owed.head?) :
    refreshBankInv r.ask = true := by
  refine refreshBankInv_iff.2 ⟨hlength, hnodup, hfresh, ?_⟩
  show (match r.request with | some x => some x | none => r.owed.head?) = r.owed.head?
  rcases hrequest with h | h
  · rw [h]
  · cases hr : r.request <;> simp_all

theorem RefreshBank.tickOutcome_hidden {r : RefreshBank} (h : r.fresh.getLsb r.due = true) :
    r.tickOutcome = .hidden := if_pos h

theorem RefreshBank.tickOutcome_owed {r : RefreshBank} (hfresh : r.fresh.getLsb r.due = false) (hnot : r.due ∉ r.owed)
    (hroom : r.owed.length < 8) : r.tickOutcome = .owed := by
  rw [RefreshBank.tickOutcome, hfresh]
  simp [hnot, maxOwed, hroom]

theorem RefreshBank.tickOutcome_lost {r : RefreshBank} (hfresh : r.fresh.getLsb r.due = false)
    (h : r.due ∈ r.owed ∨ 8 ≤ r.owed.length) : r.tickOutcome = .lost := by
  rw [RefreshBank.tickOutcome, hfresh]
  rcases h with h | h
  · simp [h]
  · simp [maxOwed, Nat.not_lt.2 h]

/-- A tick keeps the owed list as R134 and R137 say. -/
theorem RefreshBank.tick_inv {r : RefreshBank} (h : refreshBankInv r = true) : refreshBankInv r.tick = true := by
  obtain ⟨hlength, hnodup, hfresh, hrequest⟩ := refreshBankInv_iff.1 h
  unfold RefreshBank.tick
  by_cases hdue : r.fresh.getLsb r.due = true
  · rw [RefreshBank.tickOutcome_hidden hdue]
    exact RefreshBank.ask_inv (r := r.withFresh r.due false) hlength hnodup
      (fun x hx => (r.withFresh_false_getLsb r.due x).trans (by rw [hfresh x hx]; rfl)) (.inr hrequest)
  · have hnotFresh := Bool.eq_false_iff.2 hdue
    by_cases howed : r.due ∉ r.owed ∧ r.owed.length < 8
    · obtain ⟨hnot, hroom⟩ := howed
      rw [RefreshBank.tickOutcome_owed hnotFresh hnot hroom]
      refine RefreshBank.ask_inv (r := { r with owed := r.owed ++ [r.due] }) ?_ ?_ ?_ ?_
      · simpa using hroom
      · exact hnodup.append (List.nodup_singleton _) (List.disjoint_singleton.2 hnot)
      · intro x hx
        rcases List.mem_append.1 hx with hx | hx
        · exact hfresh x hx
        · exact List.mem_singleton.1 hx ▸ hnotFresh
      · show r.request = none ∨ r.request = _
        rw [hrequest]
        cases r.owed <;> simp
    · rw [RefreshBank.tickOutcome_lost hnotFresh (by rw [← Nat.not_lt]; exact not_and_or.1 howed |>.imp_left not_not.1)]
      exact RefreshBank.ask_inv hlength hnodup hfresh (.inr hrequest)

/-- A completed row keeps the owed list as R134 and R137 say. -/
theorem RefreshBank.complete_inv {r : RefreshBank} (x : Fin 1024) (h : refreshBankInv r = true) :
    refreshBankInv (r.complete x) = true := by
  obtain ⟨hlength, hnodup, hfresh, hrequest⟩ := refreshBankInv_iff.1 h
  rw [refreshBankInv_iff]
  by_cases howed : x ∈ r.owed
  · rw [RefreshBank.complete_owed howed]
    exact ⟨(List.length_filter_le _ _).trans hlength, hnodup.filter _,
      fun y hy => hfresh y (List.mem_of_mem_filter hy), rfl⟩
  · rw [RefreshBank.complete_not_owed howed]
    refine ⟨hlength, hnodup, fun y hy => (r.withFresh_true_getLsb x y).trans ?_, rfl⟩
    rw [hfresh y hy, Bool.false_or, decide_eq_false_iff_not]
    rintro rfl
    exact howed hy

theorem refreshInv_iff {s : State} : refreshInv s = true ↔ ∀ b, refreshBankInv (s.refresh.get b) = true := by
  refine List.all_eq_true.trans ⟨fun h b => h b (by cases b <;> decide), fun h b _ => h b⟩

/-- One bank's refresh state replaced by one that is as R134 and R137 say. -/
theorem refreshInv_set {s t : State} {b : BankId} {r : RefreshBank} (h : refreshInv s = true)
    (ht : t.refresh = s.refresh.set b r) (hr : refreshBankInv r = true) : refreshInv t = true := by
  rw [refreshInv_iff] at h ⊢
  intro c
  rw [ht]
  by_cases hc : c = b
  · subst hc
    rwa [PerBank.get_set_same]
  · rw [PerBank.get_set_other _ _ hc]
    exact h c

theorem refreshInv_keptByEvents : KeptByEvents fun s => refreshInv s = true := by
  refine keptByEvents_of_store (fun s t _ hrefresh hs => by rw [refreshInv, hrefresh]; exact hs)
    (fun _ _ => (by decide : refreshInv State.reset = true)) (fun _ _ => (by decide : refreshInv State.reset = true))
    (fun s b hs => ?_) fun s b a hs => ?_
  · obtain ⟨⟨_, _, _, _, _, h, -⟩, -⟩ := tickBank_frame b s
    rw [h]
    exact refreshInv_set hs rfl (RefreshBank.tick_inv (refreshInv_iff.1 hs b))
  · exact refreshInv_set hs (completion_refresh b a s) (RefreshBank.complete_inv _ (refreshInv_iff.1 hs b))

end Sys2Proof.Machine
end

section
set_option Elab.async false

open Sys2Proof Sys2Proof.Machine

/-- Settles O54: of the events only the resets, a lost row and an access completion change the store, and each write to a
row keeps its form. -/
theorem everyStepKeepsTheStore : Obligations.EveryStepKeepsTheStore :=
  fun _ _ h hstep => storeInv_keptByEvents.step h hstep

/-- Settles O56: of the events only the resets, a tick and an access completion change the refresh engine. -/
theorem everyStepKeepsTheOwedLists : Obligations.EveryStepKeepsTheOwedLists :=
  fun _ _ h hstep => refreshInv_keptByEvents.step h hstep

end

section
/-! PROOF. The batch buffers' form and the free palette blocks at every step (R44, R157). -/

set_option Elab.async false

namespace Sys2Proof.Machine

/-! ### Batch buffers -/

theorem batchInv_iff {s : State} : batchInv s = true ↔ ∀ p, (s.commit.batches.get p).inv = true := by
  simp [batchInv]

/-- One port's buffer replaced by one of those of R44. -/
theorem batchInv_set {s t : State} {p : PortId} {b : Batch} (h : batchInv s = true)
    (ht : t.commit.batches = s.commit.batches.set p b) (hb : b.inv = true) : batchInv t = true := by
  rw [batchInv_iff] at h ⊢
  intro q
  rw [ht]
  by_cases hq : q = p
  · subst hq
    rwa [PerPort.get_set_same]
  · rw [PerPort.get_set_other _ _ hq]
    exact h q

theorem batchInv_of_eq {s t : State} (h : batchInv s = true) (ht : t.commit.batches = s.commit.batches) :
    batchInv t = true := by
  rw [batchInv, ht]
  exact h

theorem emptyBatch_inv : emptyBatch.inv = true := rfl

/-- A buffer with one edit more, and fewer than 32 before. -/
theorem staged_inv {edits : List Edit} (e : Edit) (hroom : edits.length < maxEdits) :
    Batch.inv { state := .opened, edits := edits ++ [e], target := none } = true := by
  simp only [maxEdits] at hroom
  simpa [Batch.inv] using hroom

/-- An OPEN buffer that is closed. -/
theorem closed_inv {b : Batch} (h : b.inv = true) (hopen : b.state = .opened) (target : Option Half) :
    Batch.inv { b with state := .closed, target } = true := by
  simp only [Batch.inv, hopen, Bool.and_eq_true] at h ⊢
  exact h.1

/-! ### Palette blocks -/

/-- What R157 says of one block. -/
def freeBlockClear (b : PaletteBlock) : Prop :=
  b.owner = none → b.shadow = Vector.replicate 16 0 ∧ b.dirty = false

theorem paletteInv_iff {s : State} : paletteInv s = true ↔ ∀ b, freeBlockClear (s.block b) := by
  simp [paletteInv, freeBlockClear, or_iff_not_imp_left]

theorem paletteInv_of_eq {s t : State} (h : paletteInv s = true) (ht : t.palette = s.palette) :
    paletteInv t = true := by
  have hblock : t.block = s.block := funext fun b => by rw [State.block, State.block, ht]
  rw [paletteInv_iff] at h ⊢
  rwa [hblock]

theorem freeBlockClear_of_owned {b : PaletteBlock} {p : PortId} (h : b.owner = some p) : freeBlockClear b :=
  fun hnone => absurd (h.symm.trans hnone) (Option.some_ne_none p)

@[simp] theorem block_mk_tabulate (s : State) (f : Fin 64 → PaletteBlock) (b : Fin 64) :
    ({ s with palette := tabulate f } : State).block b = f b := tabulate_get f b

theorem claimRun_block (p : PortId) (first count : Nat) (s : State) (b : Fin 64) :
    (claimRun p first count s).block b =
      if inRun first count b then { s.block b with owner := some p } else s.block b := tabulate_get _ b

theorem releaseRun_block (first count : Nat) (s : State) (b : Fin 64) :
    (releaseRun first count s).block b = if inRun first count b then (s.block b).release else s.block b :=
  tabulate_get _ b

/-- The published or cleared live entries leave a free block's shadow and dirty flag clear. -/
theorem paletteBlank_inv {s : State} (published : Fin 64 → Bool) (ended : PortId → Bool) (h : paletteInv s = true) :
    paletteInv (paletteBlank published ended s) = true := by
  rw [paletteInv_iff] at h ⊢
  intro i
  have hclear : freeBlockClear (s.block i).carryOutClear := by
    unfold PaletteBlock.carryOutClear
    split <;> exact h i
  have hpublish : freeBlockClear
      (if published i then (s.block i).carryOutClear.publish else (s.block i).carryOutClear) := by
    split
    · exact fun hfree => ⟨(hclear hfree).1, rfl⟩
    · exact hclear
  refine (congrArg freeBlockClear (tabulate_get _ i)).mpr ?_
  dsimp only
  split
  · split
    · exact fun _ => ⟨rfl, rfl⟩
    · exact hpublish
  · exact hpublish

/-! ### Requests -/

/-- A request leaves the batch buffers, or replaces the port's by one of those of R44. -/
theorem RequestChange.batchInv {moves : Prop} {p : PortId} {s u : State} (hchange : RequestChange moves p s u)
    (h : Machine.batchInv s = true) : Machine.batchInv u = true := by
  cases hchange with
  | join lease view =>
    obtain ⟨_, _, hu⟩ := transferJoin_frame p
      (s.setSession p { state := .joined, lease, counter := lease, view, cause := .none })
    rw [hu]
    exact h
  | stage e hroom => exact batchInv_set h rfl (staged_inv e hroom)
  | close target hopen => exact batchInv_set h rfl (closed_inv (batchInv_iff.1 h p) hopen target)
  | abandon => exact batchInv_set h rfl emptyBatch_inv
  | move l d x y before after =>
    obtain ⟨_, hu⟩ := noticeMove_frame before after (s.setSlot l (.held .owned p { d with x, y }))
    rw [hu]
    exact h
  | grant k q =>
    obtain ⟨_, hu⟩ := setGrant_frame k q .granted s
    rw [hu]
    exact h
  | seek c =>
    obtain ⟨_, _, hu⟩ := setCursor_frame p c s
    rw [hu]
    exact h
  | _ => exact batchInv_of_eq h rfl

/-- A request leaves free blocks clear: those it claims have an owner, those it releases it clears. -/
theorem RequestChange.paletteInv {moves : Prop} {p : PortId} {s u : State} (hchange : RequestChange moves p s u)
    (h : Machine.paletteInv s = true) : Machine.paletteInv u = true := by
  cases hchange with
  | join lease view =>
    obtain ⟨_, _, hu⟩ := transferJoin_frame p
      (s.setSession p { state := .joined, lease, counter := lease, view, cause := .none })
    rw [hu]
    exact h
  | move l d x y before after =>
    obtain ⟨_, hu⟩ := noticeMove_frame before after (s.setSlot l (.held .owned p { d with x, y }))
    rw [hu]
    exact h
  | grant k q =>
    obtain ⟨_, hu⟩ := setGrant_frame k q .granted s
    rw [hu]
    exact h
  | seek c =>
    obtain ⟨_, _, hu⟩ := setCursor_frame p c s
    rw [hu]
    exact h
  | claimPalette first count =>
    rw [paletteInv_iff] at h ⊢
    intro b
    rw [claimRun_block]
    split
    · exact freeBlockClear_of_owned rfl
    · exact h b
  | releasePalette first count =>
    rw [paletteInv_iff] at h ⊢
    intro b
    rw [releaseRun_block]
    split
    · exact fun _ => ⟨rfl, rfl⟩
    · exact h b
  | paletteWrite b shadow howner =>
    rw [paletteInv_iff] at h ⊢
    intro c
    by_cases hc : c = b
    · subst hc
      rw [State.setBlock_block_same]
      exact freeBlockClear_of_owned (of_decide_eq_true howner)
    · rw [State.setBlock_block_other _ _ hc]
      exact h c
  | _ => exact paletteInv_of_eq h rfl

theorem Serves.batchInv {moves : Prop} {p : PortId} {s : State} {a : Act} (hserves : Serves moves p s a) (h : Machine.batchInv s = true) :
    Machine.batchInv a.st = true := by
  cases hserves with
  | change u result payload o l e hchange => exact hchange.batchInv h
  | leave =>
    obtain ⟨⟨_, _, _, _, hst, -⟩, -⟩ := teardownStart_frame p .leave s
    rw [Act.andThen_st, answer_st, hst]
    exact batchInv_set h rfl emptyBatch_inv
  | free k e =>
    obtain ⟨_, _, _, hst⟩ := (releaseExtent_onExtents k s).1
    rw [Act.andThen_st, answer_st, hst]
    exact h
  | revoke k q =>
    obtain ⟨_, _, _, hst⟩ := (revokeGrant_onExtents k p q s).1
    rw [Act.andThen_st, answer_st, hst]
    exact h
  | begin j u hu =>
    obtain ⟨_, _, hst⟩ := startJob_emptyBuffer_frame (j := j) hu
    rw [Act.quiet_st, hst]
    exact h
  | serve j bytes =>
    obtain ⟨_, _, _, hst⟩ := (finishRead_onExtents p j bytes s).1
    rw [hst]
    exact h

theorem Serves.paletteInv {moves : Prop} {p : PortId} {s : State} {a : Act} (hserves : Serves moves p s a)
    (h : Machine.paletteInv s = true) : Machine.paletteInv a.st = true := by
  cases hserves with
  | change u result payload o l e hchange => exact hchange.paletteInv h
  | leave =>
    obtain ⟨⟨_, _, _, _, hst, -⟩, -⟩ := teardownStart_frame p .leave s
    rw [Act.andThen_st, answer_st, hst]
    exact h
  | free k e =>
    obtain ⟨_, _, _, hst⟩ := (releaseExtent_onExtents k s).1
    rw [Act.andThen_st, answer_st, hst]
    exact h
  | revoke k q =>
    obtain ⟨_, _, _, hst⟩ := (revokeGrant_onExtents k p q s).1
    rw [Act.andThen_st, answer_st, hst]
    exact h
  | begin j u hu =>
    obtain ⟨_, _, hst⟩ := startJob_emptyBuffer_frame (j := j) hu
    rw [Act.quiet_st, hst]
    exact h
  | serve j bytes =>
    obtain ⟨_, _, _, hst⟩ := (finishRead_onExtents p j bytes s).1
    rw [hst]
    exact h

/-- A blank start leaves each buffer or makes it EMPTY. -/
theorem blankBatch_inv {s : State} (h : batchInv s = true) (p : PortId) : (blankBatch s p).inv = true := by
  unfold blankBatch
  split
  · exact batchInv_iff.1 h p
  · exact emptyBatch_inv

theorem batchAndPalette_keptByEvents : KeptByEvents fun s => batchInv s = true ∧ paletteInv s = true where
  pending _ _ := id
  pixel _ _ := id
  resetAssert s _ h := ⟨(by decide : batchInv State.reset = true), paletteInv_of_eq h.2 rfl⟩
  resetRelease s _ _ := ⟨(by decide : batchInv State.reset = true),
    paletteInv_iff.2 fun b _ => by simp [State.block, releaseReset, State.reset, clearedBlock]⟩
  select _ _ _ := id
  transactionStart _ _ := id
  transactionEnd s p t inbound h := by
    obtain ⟨_, _, hst⟩ := endTransaction_frame p t inbound s
    rw [hst]
    exact h
  expiry s p _ _ h := by
    obtain ⟨_, _, _, _, _, _, hst, -⟩ := expirePort_frame p s
    rw [hst]
    exact ⟨batchInv_set h.1 rfl emptyBatch_inv, h.2⟩
  timeout s _ h := by
    rcases timeOutVote_frame s with hst | ⟨_, hst⟩ <;> rw [hst] <;> exact h
  request s p r a _ _ ha h :=
    ⟨batchInv_of_eq (ha.batchInv h.1) (by rw [settle_commit]), paletteInv_of_eq (ha.paletteInv h.2) (settle_palette a)⟩
  grants s h := ⟨batchInv_of_eq h.1 (by rw [arbitrate_commit]), paletteInv_of_eq h.2 (arbitrate_palette s)⟩
  lineZero s _ _ h := by
    obtain ⟨_, _, _, _, hst⟩ := lineZeroFetch_frame s
    rw [hst]
    exact h
  frame s _ _ h := by
    obtain ⟨_, _, _, _, _, _, _, _, _, hst⟩ := startFrame_frame s
    rw [hst]
    exact h
  line s _ _ h := by
    obtain ⟨_, _, _, _, _, _, _, _, hst⟩ := nextLine_frame s
    rw [hst]
    exact h
  blank s _ _ h := by
    obtain ⟨_, _, _, _, _, hst⟩ := settleAndArbitrate_frame (blankAct s)
    obtain ⟨_, _, _, _, _, _, hst'⟩ := blankAct_frame s
    rw [startBlank, hst, hst']
    exact ⟨batchInv_iff.2 fun p => (congrArg Batch.inv (PerPort.get_tab _ p)).trans (blankBatch_inv h.1 p),
      paletteInv_of_eq (paletteBlank_inv (published s) (teardownEnds s) h.2) rfl⟩
  tick s b _ h := by
    obtain ⟨_, _, _, _, _, hst⟩ := settleAndArbitrate_frame (tickBank b s)
    obtain ⟨⟨_, _, _, _, _, hst', -⟩, -⟩ := tickBank_frame b s
    rw [hst, hst']
    exact h
  completion s b a _ _ h := by
    obtain ⟨_, _, _, _, _, hst⟩ := completion_frame b a s
    rw [hst]
    exact h

end Sys2Proof.Machine
end

section
set_option Elab.async false

open Sys2Proof Sys2Proof.Machine

/-- Settles O57: by the requests that stage, close or abandon a batch or change palette blocks, the teardown start and
the blank start; nothing else changes either. -/
theorem everyStepKeepsBatchesAndPalette : Obligations.EveryStepKeepsBatchesAndPalette :=
  fun _ _ hbatch hpalette hstep => batchAndPalette_keptByEvents.step ⟨hbatch, hpalette⟩ hstep

end

section
/-! SUPPORT. What becomes of the extent records: rows and counts stay as they are, but for an unreferenced extent that is
freed (R104, R108, R113). -/

set_option Elab.async false

namespace Sys2Proof.Machine

/-- The record of a handle is kept: its rows and counts stay, or it was unreferenced and is gone. -/
def RecordKept (before : Option Extent) : Option Extent → Prop
  | some f => ∃ e, before = some e ∧ f.firstRow = e.firstRow ∧ f.rows = e.rows ∧ f.counts = e.counts
  | none => ∀ e, before = some e → e.unreferenced = true

theorem RecordKept.refl (r : Option Extent) : RecordKept r r := by
  cases r with
  | some e => exact ⟨e, rfl, rfl, rfl, rfl⟩
  | none => exact fun e he => nomatch he

theorem RecordKept.trans {r x y : Option Extent} (h : RecordKept r x) (h' : RecordKept x y) : RecordKept r y := by
  cases y with
  | some f =>
    obtain ⟨e', rfl, h1', h2', h3'⟩ := h'
    obtain ⟨e, rfl, h1, h2, h3⟩ := h
    exact ⟨e, rfl, h1'.trans h1, h2'.trans h2, h3'.trans h3⟩
  | none =>
    rintro e rfl
    cases x with
    | some e' =>
      obtain ⟨e₀, he, -, -, hcounts⟩ := h
      obtain rfl := Option.some.inj he
      have := h' e' rfl
      rwa [Extent.unreferenced, hcounts] at this
    | none => exact h e rfl

/-- Every record is kept. -/
structure RecordsKept (s t : State) : Prop where
  record : ∀ h, RecordKept (s.extent h) (t.extent h)

theorem RecordsKept.refl (s : State) : RecordsKept s s := ⟨fun _ => .refl _⟩

theorem RecordsKept.trans {s t u : State} (h : RecordsKept s t) (h' : RecordsKept t u) : RecordsKept s u :=
  ⟨fun k => (h.record k).trans (h'.record k)⟩

theorem recordsKept_of_records {s t : State} (h : t.extents.records = s.extents.records) : RecordsKept s t := by
  refine ⟨fun k => ?_⟩
  rw [State.extent, State.extent, h]
  exact .refl _

theorem recordsKept_of_extents {s t : State} (h : t.extents = s.extents) : RecordsKept s t :=
  recordsKept_of_records (congrArg ExtentManager.records h)

theorem recordsKept_setExtent {s : State} {h : Fin 32} {e f : Extent} (he : s.extent h = some e)
    (hrow : f.firstRow = e.firstRow) (hrows : f.rows = e.rows) (hcounts : f.counts = e.counts) :
    RecordsKept s (s.setExtent h (some f)) := by
  refine ⟨fun k => ?_⟩
  by_cases hk : k = h
  · subst hk
    rw [State.setExtent_extent_same]
    exact ⟨e, he, hrow, hrows, hcounts⟩
  · rw [State.setExtent_extent_other _ _ hk]
    exact .refl _

theorem RecordsKept.forEach {α : Type} {s : State} {a : Act} {f : α → State → Act} (l : List α)
    (ha : RecordsKept s a.st) (hf : ∀ x u, RecordsKept u (f x u).st) : RecordsKept s (a.forEach l f).st :=
  Act.forEach_keeps (P := fun a => RecordsKept s a.st) l ha fun x _ b hb => hb.trans (hf x b.st)

/-! ### Operations of the extent manager -/

/-- The records and clear lists after an extent is freed. -/
theorem releaseExtent_extents {h : Fin 32} {s : State} {e : Extent} (he : s.extent h = some e) :
    (releaseExtent h s).st.extents = ((leaveClearLists s h).setExtent h none).extents := by
  have giveUp : ∀ (l : List PortId) (u : State), (l.foldl (fun u p => giveUpClear u h p) u).extents = u.extents := by
    intro l
    induction l with
    | nil => exact fun _ => rfl
    | cons p l ih =>
      intro u
      refine (ih (giveUpClear u h p)).trans ?_
      unfold giveUpClear
      split <;> rfl
  have notice : ∀ (l : List PortId) (a : Act),
      (a.forEach l fun p => loseExtent h .noObject p).st.extents = a.st.extents := fun l a =>
    Act.forEach_keeps (P := fun b => b.st.extents = a.st.extents) l rfl
      fun p _ b hb => (loseExtent_extents h .noObject p b.st).trans hb
  unfold releaseExtent
  rw [he]
  refine (notice _ _).trans ?_
  simp only [Act.sendAll_st, Act.quiet_st, State.setExtent_extents, leaveClearLists, giveUp]

/-- Freeing an extent takes its record away and leaves the others. -/
theorem releaseExtent_extent {h k : Fin 32} {s : State} {e : Extent} (he : s.extent h = some e) :
    (releaseExtent h s).st.extent k = if k = h then none else s.extent k := by
  rw [State.extent, releaseExtent_extents he]
  by_cases hk : k = h
  · subst hk
    exact ((leaveClearLists s k).setExtent_extent_same k none).trans (if_pos rfl).symm
  · exact ((leaveClearLists s h).setExtent_extent_other none hk).trans (if_neg hk).symm

theorem releaseExtent_kept {h : Fin 32} {s : State} (hunused : ∀ e, s.extent h = some e → e.unreferenced = true) :
    RecordsKept s (releaseExtent h s).st := by
  refine ⟨fun k => ?_⟩
  cases he : s.extent h with
  | none =>
    rw [show releaseExtent h s = .quiet s by unfold releaseExtent; rw [he]]
    exact .refl _
  | some e =>
    rw [releaseExtent_extent he]
    split
    · rename_i hk
      subst hk
      exact hunused
    · exact .refl _

theorem releaseIfUnreferenced_kept (h : Fin 32) (s : State) : RecordsKept s (releaseIfUnreferenced h s).st := by
  unfold releaseIfUnreferenced
  split
  · rename_i e he
    split
    · rename_i hfree
      refine releaseExtent_kept fun f hf => ?_
      obtain rfl := Option.some.inj (he.symm.trans hf)
      exact (Bool.and_eq_true_iff.1 hfree).2
    · exact .refl s
  · exact .refl s

theorem setGrant_kept (h : Fin 32) (p : PortId) (v : GrantState) (s : State) : RecordsKept s (setGrant h p v s) := by
  unfold setGrant
  split
  · rename_i he
    exact recordsKept_setExtent he rfl rfl rfl
  · exact .refl s

theorem loseExtent_kept (h : Fin 32) (r : Result) (p : PortId) (s : State) : RecordsKept s (loseExtent h r p s).st :=
  recordsKept_of_extents (loseExtent_extents h r p s)

theorem revokeGrant_kept (h : Fin 32) (g p : PortId) (s : State) : RecordsKept s (revokeGrant h g p s).st := by
  unfold revokeGrant
  split
  · exact .refl s
  · split
    · split
      · exact (setGrant_kept h p .none s).trans (loseExtent_kept h .notGranted p _)
      · exact setGrant_kept h p .withdrawing s
    · exact .refl s
    · exact .refl s

theorem orphanExtent_kept (p : PortId) (h : Fin 32) (s : State) : RecordsKept s (orphanExtent p h s).st := by
  unfold orphanExtent
  split
  · exact .refl s
  · rename_i e he
    split
    · have horphan : RecordsKept s (s.setExtent h (some { e with owner := none })) :=
        recordsKept_setExtent he rfl rfl rfl
      have hrevoked : RecordsKept s ((Act.quiet (s.setExtent h (some { e with owner := none }))).forEach
          (otherPorts p) fun q => revokeGrant h p q).st :=
        RecordsKept.forEach _ horphan fun q u => revokeGrant_kept h p q u
      exact (hrevoked.trans (setGrant_kept h p _ _)).trans (releaseIfUnreferenced_kept h _)
    · exact .refl s

theorem orphanExtents_kept (p : PortId) (s : State) : RecordsKept s (orphanExtents p s).st := by
  unfold orphanExtents
  exact RecordsKept.forEach (List.finRange 32) (a := .quiet s) (.refl s) fun h u => orphanExtent_kept p h u

theorem voterLeft_extents (p : PortId) (s : State) : (voterLeft p s).st.extents = s.extents := by
  obtain ⟨⟨_, h, -⟩, -⟩ := voterLeft_frame p s
  rw [h]
  rfl

/-- The teardown start changes the extents as the departure of their owner alone does. -/
theorem teardownStart_kept (p : PortId) (cause : TeardownCause) (s : State) :
    RecordsKept s (teardownStart p cause s).st := by
  obtain ⟨b, t, ht⟩ := transferTeardown_frame p (checkTeardown p (commitTeardown p (sessionTeardown p cause s)))
  simp only [teardownStart, Act.andThen_st, Act.sendAll_st, Act.quiet_st]
  generalize hu : transferTeardown p _ = u at ht ⊢
  have hvoter : RecordsKept s (voterLeft p u).st :=
    recordsKept_of_extents ((voterLeft_extents p u).trans (by rw [ht]; rfl))
  exact hvoter.trans (orphanExtents_kept p _)

/-! ### Requests, ticks, completions and the blank start -/

/-- A request keeps every record, or allocates one: at a free handle, and where a run of rows is free. -/
theorem RequestChange.records {moves : Prop} {p : PortId} {s u : State} (hchange : RequestChange moves p s u) : RecordsKept s u ∨
    ∃ h g n, 1 ≤ n ∧ s.extent h = .none ∧ firstFit (takenRuns s) n = some g ∧
      ∀ k, u.extent k = if k = h then some (newExtent p g n) else s.extent k := by
  cases hchange with
  | join lease view =>
    obtain ⟨_, _, hu⟩ := transferJoin_frame p
      (s.setSession p { state := .joined, lease, counter := lease, view, cause := .none })
    exact .inl (recordsKept_of_extents (by rw [hu]; rfl))
  | move l d x y before after =>
    obtain ⟨_, hu⟩ := noticeMove_frame before after (s.setSlot l (.held .owned p { d with x, y }))
    exact .inl (recordsKept_of_extents (by rw [hu]; rfl))
  | alloc h g n hrows hfree hfit =>
    refine .inr ⟨h, g, n, hrows, hfree, hfit, fun k => ?_⟩
    by_cases hk : k = h
    · subst hk
      rw [if_pos rfl]
      exact s.setExtent_extent_same k _
    · rw [if_neg hk]
      exact s.setExtent_extent_other _ hk
  | grant h q => exact .inl (setGrant_kept h q .granted s)
  | mend h e hextent => exact .inl (recordsKept_setExtent hextent rfl rfl rfl)
  | seek c =>
    obtain ⟨_, _, hu⟩ := setCursor_frame p c s
    exact .inl (recordsKept_of_extents (by rw [hu]))
  | _ => exact .inl (recordsKept_of_extents rfl)

theorem Serves.records {moves : Prop} {p : PortId} {s : State} {a : Act} (hserves : Serves moves p s a) : RecordsKept s a.st ∨
    ∃ h g n, 1 ≤ n ∧ s.extent h = .none ∧ firstFit (takenRuns s) n = some g ∧
      ∀ k, a.st.extent k = if k = h then some (newExtent p g n) else s.extent k := by
  cases hserves with
  | change u result payload o l e hchange => exact hchange.records
  | leave =>
    rw [Act.andThen_st, answer_st]
    exact .inl (teardownStart_kept p .leave s)
  | free h e he hunused =>
    refine .inl (releaseExtent_kept fun f hf => ?_)
    obtain rfl := Option.some.inj (he.symm.trans hf)
    exact hunused
  | revoke h q => exact .inl (revokeGrant_kept h p q s)
  | begin j u hu =>
    obtain ⟨_, _, hst⟩ := startJob_emptyBuffer_frame (j := j) hu
    exact .inl (recordsKept_of_extents (by rw [Act.quiet_st, hst]))
  | serve j bytes =>
    obtain ⟨⟨⟨_, _, hst⟩, -⟩, -⟩ := finishRead_frame p j bytes s
    exact .inl (recordsKept_of_extents (by rw [hst]))

theorem lostRow_kept (g : Nat) (s : State) : RecordsKept s (lostRow g s).st := by
  unfold lostRow
  split
  · exact .refl s
  · split
    · exact .refl s
    · rename_i e he
      split
      · exact recordsKept_setExtent he rfl rfl rfl
      · refine (recordsKept_setExtent (f := { e with state := .damaged, lost := min 255 (e.lost + 1) })
          he rfl rfl rfl).trans (recordsKept_of_extents ?_)
        unfold damageExtent
        dsimp only
        split
        · obtain ⟨_, _, h⟩ := noticeDamaged_frame ‹_› (s.setExtent ‹_› (some { e with state := .damaged, lost := min 255 (e.lost + 1) }))
          rw [Act.sendAll_st, Act.quiet_st, h]
        · rfl

theorem tickBank_kept (b : BankId) (s : State) : RecordsKept s (tickBank b s).st := by
  unfold tickBank
  dsimp only
  split
  · generalize hu : scrambleRow _ _ = u
    exact (recordsKept_of_extents (by rw [← hu]; rfl)).trans (lostRow_kept _ u)
  · exact recordsKept_of_extents rfl

theorem clearCompleted_kept (p : PortId) (g : Nat) (s : State) : RecordsKept s (clearCompleted p g s).st := by
  unfold clearCompleted
  split
  · exact .refl s
  · split
    · exact .refl s
    · rename_i e he
      split
      · split
        · exact recordsKept_setExtent he rfl rfl rfl
        · exact (recordsKept_setExtent (f := { e with progress := e.rows, state := .ready }) he rfl rfl rfl).trans
            (recordsKept_of_records rfl)
      · exact .refl s

theorem transferCompleted_extents (p : PortId) (b : BankId) (bytes : List Byte) (s : State) :
    (transferCompleted p b bytes s).st.extents = s.extents := by
  unfold transferCompleted
  dsimp only
  split
  · obtain ⟨⟨_, _, h⟩, -⟩ := finishJob_frame p (s.setTransfer p { s.transfer.get p with
      job := (s.transfer.get p).job.map fun j => { j with parts := markDone b bytes j.parts } })
    rw [h]
    rfl
  · obtain ⟨⟨_, _, h⟩, -⟩ := finishFetch_frame p (s.setTransfer p { s.transfer.get p with
      buffer := (s.transfer.get p).buffer.completeAt b bytes })
    rw [h]
    rfl

theorem completeAccess_kept (b : BankId) (a : Access) (s : State) : RecordsKept s (completeAccess b a s).st := by
  unfold completeAccess
  dsimp only
  generalize hu : State.setRefresh _ b _ = u
  have hnotice : RecordsKept s (sendWriteNotice a u) := by
    obtain ⟨_, _, h, -⟩ := sendWriteNotice_frame a u
    rw [h, ← hu]
    exact recordsKept_of_extents rfl
  refine hnotice.trans ?_
  unfold handOver
  split
  · split
    · exact .refl _
    · exact recordsKept_of_extents rfl
    · exact recordsKept_of_extents (transferCompleted_extents _ b _ _)
    · exact clearCompleted_kept _ a.row _
  · exact .refl _

theorem endWithdrawal_kept (old : Extent) (h : Fin 32) (p : PortId) (s : State) :
    RecordsKept s (endWithdrawal old h p s).st := by
  unfold endWithdrawal
  split
  · exact .refl s
  · split
    · exact (setGrant_kept h p .none s).trans (loseExtent_kept h .notGranted p _)
    · exact .refl s

theorem clearGrant_kept (h : Fin 32) (p : PortId) (s : State) : RecordsKept s (clearGrant h p s).st := by
  unfold clearGrant
  split
  · exact .refl s
  · split
    · exact .refl s
    · exact (setGrant_kept h p .none s).trans (loseExtent_kept h .notGranted p _)

theorem extentBlank_kept (old : State) (h : Fin 32) (s : State) : RecordsKept s (extentBlank old h s).st := by
  unfold extentBlank
  split
  · exact .refl s
  · exact ((RecordsKept.forEach _ (RecordsKept.forEach _ (.refl s) fun p u => endWithdrawal_kept _ h p u)
      fun p u => clearGrant_kept h p u)).trans (releaseIfUnreferenced_kept h _)

/-- Besides the new counts the blank start keeps every record. -/
theorem extentsBlank_kept (old s : State) :
    RecordsKept (recordCounts old.commit.slots s) (extentsBlank old s).st := by
  unfold extentsBlank
  exact RecordsKept.forEach _ (.refl _) fun h u => extentBlank_kept old h u

@[simp] theorem recordCounts_extent (before : Vector Slot 16) (s : State) (h : Fin 32) :
    (recordCounts before s).extent h = (s.extent h).map fun e =>
      { e with counts := PerPort.tab fun p => recount before s.commit.slots p h (e.counts.get p) } := tabulate_get _ h

/-- The extents after a blank start are those the extent manager leaves, after the commit engine. -/
theorem blankAct_extents (s : State) : (blankAct s).st.extents =
    (extentsBlank s (commitBlank { s with scan := s.scan.toLine .blank 0 }).st).st.extents := by
  have hadopt : ∀ u, (adoptionBlank u).st.extents = u.extents := by
    intro u
    obtain ⟨⟨_, _, h⟩, -⟩ := adoptionBlank_frame u
    rw [h]
  have hwindows : ∀ u, (windowsBlank u).st.extents = u.extents := by
    intro u
    obtain ⟨⟨_, h⟩, -⟩ := windowsBlank_frame u
    rw [h]
  simp only [blankAct, Act.andThen_st, Act.change_st, hadopt, sessionsBlank, hwindows]
  rfl

end Sys2Proof.Machine
end

section
/-! PROOF. The extents apart and inside the store at every step (R99, R104). -/

set_option Elab.async false

namespace Sys2Proof.Machine

theorem extentsApart_iff {e f : Extent} : extentsApart e f = true ↔
    e.firstRow + e.rows ≤ f.firstRow ∨ f.firstRow + f.rows ≤ e.firstRow := by
  simp [extentsApart]

theorem extentsInv_iff {s : State} : extentsInv s = true ↔ ∀ h e, s.extent h = some e →
    1 ≤ e.rows ∧ e.firstRow + e.rows ≤ 4096 ∧ ∀ k f, s.extent k = some f → h ≠ k → extentsApart e f = true := by
  simp only [extentsInv, List.all_eq_true, List.mem_finRange, forall_const]
  refine forall_congr' fun h => ?_
  cases s.extent h with
  | none => simp
  | some e =>
    simp only [Bool.and_eq_true, decide_eq_true_eq, List.all_eq_true, List.mem_finRange, forall_const,
      Option.some.injEq, forall_eq', and_assoc]
    refine and_congr_right fun _ => and_congr_right fun _ => forall_congr' fun k => ?_
    cases s.extent k with
    | none => simp
    | some f => simp [or_iff_not_imp_left]

/-- What keeps the records but for their counts keeps the extents apart. -/
theorem extentsInv_of_places {s t : State} (h : extentsInv s = true) (ht : ∀ k f, t.extent k = some f →
    ∃ e, s.extent k = some e ∧ f.firstRow = e.firstRow ∧ f.rows = e.rows) : extentsInv t = true := by
  rw [extentsInv_iff] at h ⊢
  intro k f hf
  obtain ⟨e, he, hrow, hrows⟩ := ht k f hf
  obtain ⟨hpos, hin, hapart⟩ := h k e he
  refine ⟨hrows ▸ hpos, hrow ▸ hrows ▸ hin, fun k' f' hf' hne => ?_⟩
  obtain ⟨e', he', hrow', hrows'⟩ := ht k' f' hf'
  simpa only [extentsApart, hrow, hrows, hrow', hrows'] using hapart k' e' he' hne

theorem extentsInv_of_kept {s t : State} (h : extentsInv s = true) (ht : RecordsKept s t) : extentsInv t = true := by
  refine extentsInv_of_places h fun k f hf => ?_
  have hk := ht.record k
  rw [hf] at hk
  obtain ⟨e, he, hrow, hrows, -⟩ := hk
  exact ⟨e, he, hrow, hrows⟩

theorem extentsInv_of_extents {s t : State} (h : extentsInv s = true) (ht : t.extents = s.extents) :
    extentsInv t = true := extentsInv_of_kept h (recordsKept_of_extents ht)

/-! ### First fit -/

theorem lowestNat_mem {l : List Nat} {g : Nat} (h : lowestNat l = some g) : g ∈ l := by
  induction l generalizing g with
  | nil => cases h
  | cons n rest ih =>
    rw [lowestNat] at h
    split at h
    · rename_i m hm
      rcases Nat.le_total n m with hle | hle
      · rw [Nat.min_eq_left hle] at h
        exact Option.some.inj h ▸ List.mem_cons_self
      · rw [Nat.min_eq_right hle] at h
        exact Option.some.inj h ▸ List.mem_cons_of_mem _ (ih hm)
    · exact Option.some.inj h ▸ List.mem_cons_self

theorem runFree_iff {taken : List (Nat × Nat)} {n g : Nat} : runFree taken n g = true ↔
    g + n ≤ 4096 ∧ ∀ r ∈ taken, g + n ≤ r.1 ∨ r.1 + r.2 ≤ g := by
  rw [runFree, Bool.and_eq_true, decide_eq_true_eq]
  simp [storeRows]

/-- The run first fit finds is free. -/
theorem runFree_of_firstFit {taken : List (Nat × Nat)} {n g : Nat} (h : firstFit taken n = some g) :
    runFree taken n g = true := (List.mem_filter.1 (lowestNat_mem h)).2

theorem mem_takenRuns {s : State} {h : Fin 32} {e : Extent} (he : s.extent h = some e) :
    (e.firstRow, e.rows) ∈ takenRuns s :=
  List.mem_append_left _ (List.mem_filterMap.2 ⟨h, List.mem_finRange h, by rw [he]; rfl⟩)

/-- An extent allocated where a run of rows is free is apart from the others. -/
theorem extentsInv_alloc {s t : State} {p : PortId} {h : Fin 32} {g n : Nat} (hinv : extentsInv s = true)
    (hrows : 1 ≤ n) (hfit : firstFit (takenRuns s) n = some g)
    (ht : ∀ k, t.extent k = if k = h then some (newExtent p g n) else s.extent k) : extentsInv t = true := by
  obtain ⟨hin, hfree⟩ := runFree_iff.1 (runFree_of_firstFit hfit)
  rw [extentsInv_iff] at hinv ⊢
  have other : ∀ {k f}, k ≠ h → t.extent k = some f → s.extent k = some f := fun hk hf => by
    rwa [ht, if_neg hk] at hf
  have new : ∀ {f}, t.extent h = some f → f = newExtent p g n := fun hf => by
    rw [ht, if_pos rfl] at hf
    exact (Option.some.inj hf).symm
  intro k f hf
  by_cases hk : k = h
  · subst hk
    obtain rfl := new hf
    refine ⟨hrows, hin, fun k' f' hf' hne => extentsApart_iff.2 ?_⟩
    exact hfree _ (mem_takenRuns (other hne.symm hf'))
  · obtain ⟨hpos, hin', hapart⟩ := hinv k f (other hk hf)
    refine ⟨hpos, hin', fun k' f' hf' hne => ?_⟩
    by_cases hk' : k' = h
    · subst hk'
      obtain rfl := new hf'
      exact extentsApart_iff.2 (hfree _ (mem_takenRuns (other hk hf))).symm
    · exact hapart k' f' (other hk' hf') hne

theorem extentsInv_none {s : State} (h : s.extents.records = Vector.replicate 32 none) : extentsInv s = true := by
  rw [extentsInv_iff]
  intro k e he
  simp [State.extent, h] at he

theorem extentsInv_keptByEvents : KeptByEvents fun s => extentsInv s = true where
  pending _ _ := id
  pixel _ _ := id
  resetAssert _ _ _ := extentsInv_none rfl
  resetRelease _ _ _ := extentsInv_none rfl
  select _ _ _ := id
  transactionStart _ _ := id
  transactionEnd s p t inbound h := by
    obtain ⟨_, _, hst⟩ := endTransaction_frame p t inbound s
    rw [hst]
    exact h
  expiry s p _ _ h := by
    refine extentsInv_of_extents (extentsInv_of_kept (s := s.setPort p (s.ports.get p).expire) h
      (teardownStart_kept p .expiry _)) ?_
    rw [expirePort, Act.settleAndArbitrate, arbitrate_extents, settle_extents]
  timeout s _ h := by
    rcases timeOutVote_frame s with hst | ⟨_, hst⟩ <;> rw [hst] <;> exact h
  request s p r a _ _ ha h := by
    refine extentsInv_of_extents ?_ (settle_extents a)
    rcases ha.records with hkept | ⟨k, g, n, hrows, -, hfit, hst⟩
    · exact extentsInv_of_kept h hkept
    · exact extentsInv_alloc h hrows hfit hst
  grants s h := extentsInv_of_extents h (arbitrate_extents s)
  lineZero s _ _ h := by
    obtain ⟨_, _, _, _, hst⟩ := lineZeroFetch_frame s
    rw [hst]
    exact h
  frame s _ _ h := by
    obtain ⟨_, _, _, _, _, _, _, _, _, hst⟩ := startFrame_frame s
    rw [hst]
    exact h
  line s _ _ h := by
    obtain ⟨_, _, _, _, _, _, _, _, hst⟩ := nextLine_frame s
    rw [hst]
    exact h
  blank s _ _ h := by
    have hcounts : extentsInv (recordCounts s.commit.slots (commitBlank { s with scan := s.scan.toLine .blank 0 }).st) =
        true := by
      refine extentsInv_of_places h fun k f hf => ?_
      rw [recordCounts_extent] at hf
      obtain ⟨e, he, rfl⟩ := Option.map_eq_some_iff.1 hf
      exact ⟨e, he, rfl, rfl⟩
    refine extentsInv_of_extents (extentsInv_of_kept hcounts (extentsBlank_kept s _)) ?_
    rw [startBlank, Act.settleAndArbitrate, arbitrate_extents, settle_extents, blankAct_extents]
  tick s b _ h := by
    refine extentsInv_of_extents (extentsInv_of_kept h (tickBank_kept b s)) ?_
    rw [Act.settleAndArbitrate, arbitrate_extents, settle_extents]
  completion s b a _ _ h := by
    refine extentsInv_of_extents (extentsInv_of_kept h (completeAccess_kept b a s)) ?_
    rw [Act.settleAndArbitrate, arbitrate_extents, settle_extents]

end Sys2Proof.Machine
end

section
/-! PROOF. The reference counts at every step (R67, R113). -/

set_option Elab.async false

namespace Sys2Proof.Machine

theorem countsInv_iff {s : State} : countsInv s = true ↔ (s.resetN = true → ∀ h p,
    drawing s.commit.slots p h = (s.extent h).elim 0 fun e => e.counts.get p) := by
  simp [countsInv, or_iff_not_imp_left]

theorem unreferenced_iff {e : Extent} : e.unreferenced = true ↔ ∀ p, e.counts.get p = 0 := by
  simp [Extent.unreferenced]

/-- Every port draws from every extent with as many slots as before. -/
def SameDrawing (a b : Vector Slot 16) : Prop := ∀ p h, drawing b p h = drawing a p h

theorem SameDrawing.of_slots {a b : Vector Slot 16} (h : ∀ (l : Fin 16) p k, draws p k b[l] = draws p k a[l]) :
    SameDrawing a b := by
  intro p k
  simp only [drawing, howMany, h]

theorem SameDrawing.of_eq {a b : Vector Slot 16} (h : b = a) : SameDrawing a b := fun p k => by rw [h]

theorem drawing_eq_zero_iff {v : Vector Slot 16} {p : PortId} {h : Fin 32} :
    drawing v p h = 0 ↔ ∀ l : Fin 16, draws p h v[l] = false := by
  simp [drawing, howMany, List.countP_eq_zero]

theorem countsInv_of_kept {s t : State} (hinv : countsInv s = true) (hreset : t.resetN = true → s.resetN = true)
    (hslots : SameDrawing s.commit.slots t.commit.slots) (hkept : RecordsKept s t) : countsInv t = true := by
  rw [countsInv_iff] at hinv ⊢
  intro ht h p
  have hcount := hinv (hreset ht) h p
  have hrecord := hkept.record h
  rw [hslots p h, hcount]
  cases hafter : t.extent h with
  | some f =>
    rw [hafter] at hrecord
    obtain ⟨e, he, -, -, hcounts⟩ := hrecord
    rw [he]
    exact congrArg (PerPort.get · p) hcounts.symm
  | none =>
    rw [hafter] at hrecord
    cases hbefore : s.extent h with
    | none => rfl
    | some e => exact unreferenced_iff.1 (hrecord e hbefore) p

theorem countsInv_of_same {s t : State} (hinv : countsInv s = true) (hreset : t.resetN = s.resetN)
    (hcommit : t.commit = s.commit) (hextents : t.extents = s.extents) : countsInv t = true :=
  countsInv_of_kept hinv (fun h => hreset ▸ h) (.of_eq (by rw [hcommit])) (recordsKept_of_extents hextents)

/-- A new extent is drawn from by no slot. -/
theorem countsInv_alloc {s t : State} {p : PortId} {h : Fin 32} {g n : Nat} (hinv : countsInv s = true)
    (hreset : t.resetN = s.resetN) (hslots : SameDrawing s.commit.slots t.commit.slots) (hfree : s.extent h = none)
    (ht : ∀ k, t.extent k = if k = h then some (newExtent p g n) else s.extent k) : countsInv t = true := by
  rw [countsInv_iff] at hinv ⊢
  intro hr k q
  rw [hslots q k, hinv (hreset ▸ hr) k q, ht]
  split
  · rename_i hk
    subst hk
    rw [hfree]
    cases q <;> rfl
  · rfl

theorem countsInv_reset {s : State} (hslots : s.commit.slots = Vector.replicate 16 .free)
    (hrecords : s.extents.records = Vector.replicate 32 none) : countsInv s = true := by
  rw [countsInv_iff]
  intro _ h p
  have hextent : s.extent h = none := by simp [State.extent, hrecords]
  rw [hextent, hslots]
  exact drawing_eq_zero_iff.2 fun l => by simp [draws]

/-! ### The slots at requests and teardowns -/

theorem draws_retireFor (p q : PortId) (h : Fin 32) (r : Slot) : draws q h (r.retireFor p) = draws q h r := by
  unfold Slot.retireFor
  split
  · split <;> rfl
  · rfl

theorem commitTeardown_drawing (p : PortId) (s : State) :
    SameDrawing s.commit.slots (commitTeardown p s).commit.slots :=
  .of_slots fun l q k => by
    rw [show (commitTeardown p s).commit.slots[l] = (s.slot l).retireFor p from tabulate_get _ l]
    exact draws_retireFor p q k _

theorem setSlot_drawing {s : State} {l : Fin 16} {r : Slot} (h : ∀ p k, draws p k r = draws p k (s.slot l)) :
    SameDrawing s.commit.slots (s.setSlot l r).commit.slots :=
  .of_slots fun m p k => by
    show draws p k ((s.setSlot l r).slot m) = draws p k (s.slot m)
    by_cases hm : m = l
    · subst hm
      rw [State.setSlot_slot_same]
      exact h p k
    · rw [State.setSlot_slot_other _ _ hm]

/-- No request changes what a port draws from. -/
theorem RequestChange.drawing {moves : Prop} {p : PortId} {s u : State} (hchange : RequestChange moves p s u) :
    SameDrawing s.commit.slots u.commit.slots := by
  cases hchange with
  | join lease view =>
    obtain ⟨_, _, hu⟩ := transferJoin_frame p
      (s.setSession p { state := .joined, lease, counter := lease, view, cause := .none })
    exact .of_eq (by rw [hu]; rfl)
  | claimLayer l z hjoined hfree =>
    refine setSlot_drawing fun q k => ?_
    rw [hfree]
    simp [draws, defaultDescriptor]
  | move l d x y before after hslot =>
    obtain ⟨_, hu⟩ := noticeMove_frame before after (s.setSlot l (.held .owned p { d with x, y }))
    rw [hu]
    refine setSlot_drawing fun q k => ?_
    rw [hslot]
    rfl
  | grant k q =>
    obtain ⟨_, hu⟩ := setGrant_frame k q .granted s
    exact .of_eq (by rw [hu])
  | seek c =>
    obtain ⟨_, _, hu⟩ := setCursor_frame p c s
    exact .of_eq (by rw [hu])
  | _ => exact .of_eq rfl

theorem Serves.drawing {moves : Prop} {p : PortId} {s : State} {a : Act} (hserves : Serves moves p s a) :
    SameDrawing s.commit.slots a.st.commit.slots := by
  cases hserves with
  | change u result payload o l e hchange => exact hchange.drawing
  | leave =>
    obtain ⟨⟨_, _, _, _, hst, -⟩, -⟩ := teardownStart_frame p .leave s
    rw [Act.andThen_st, answer_st, hst]
    exact commitTeardown_drawing p s
  | free k e =>
    obtain ⟨_, _, _, hst⟩ := (releaseExtent_onExtents k s).1
    rw [Act.andThen_st, answer_st, hst]
    exact .of_eq rfl
  | revoke k q =>
    obtain ⟨_, _, _, hst⟩ := (revokeGrant_onExtents k p q s).1
    rw [Act.andThen_st, answer_st, hst]
    exact .of_eq rfl
  | begin j u hu =>
    obtain ⟨_, _, hst⟩ := startJob_emptyBuffer_frame (j := j) hu
    rw [Act.quiet_st, hst]
    exact .of_eq rfl
  | serve j bytes =>
    obtain ⟨_, _, _, hst⟩ := (finishRead_onExtents p j bytes s).1
    rw [hst]
    exact .of_eq rfl

/-! ### The blank start -/

/-- What a batch that applies makes of a slot: it stays, is freed, or takes its projection, which has passed the fit
checks. -/
theorem blankSlot_cases (s : State) (l : Fin 16) :
    blankSlot s l = s.slot l ∨ blankSlot s l = .free ∨
      ∃ p live, s.slot l = .held .owned p live ∧ ∃ edits, verdict s p = .apply edits ∧
        touches s p edits l = true ∧ (project l live edits).retire = false ∧
        blankSlot s l = .held .owned p (project l live edits).desc := by
  unfold blankSlot
  split
  · exact .inl (by simp_all)
  · rename_i hslot
    rw [hslot]
    split
    · exact .inr (.inl rfl)
    · exact .inl rfl
  · rename_i p live hslot
    rw [hslot]
    split
    · rename_i edits hverdict
      unfold applySlot
      split
      · rename_i htouches
        dsimp only
        split
        · exact .inr (.inl rfl)
        · rename_i hretire
          exact .inr (.inr ⟨p, live, rfl, edits, hverdict, htouches, by simpa using hretire, rfl⟩)
      · exact .inl rfl
    · exact .inl rfl

theorem verdict_apply {s : State} {p : PortId} {edits : List Edit} (h : verdict s p = .apply edits) :
    edits = (s.commit.batches.get p).edits ∧ batchFailure s p edits = none := by
  unfold verdict at h
  split at h
  · split at h
    · cases h
      exact ⟨rfl, ‹_›⟩
    · cases h
  · cases h

/-- The projection a blank start gives a slot has failed no fit check. -/
theorem slotFailure_none_of_apply {s : State} {p : PortId} {edits : List Edit} {l : Fin 16} {live : Descriptor}
    (hverdict : verdict s p = .apply edits) (hslot : s.slot l = .held .owned p live)
    (htouches : touches s p edits l = true) (hretire : (project l live edits).retire = false) :
    slotFailure s p edits l live (project l live edits).desc = none := by
  have hslots := (batchFailure_eq_none_iff.1 (verdict_apply hverdict).2).1 l
  have hrejection := slotRejection_eq_none_iff.2 hslots
  simpa [slotRejection, htouches, hslot, Slot.live?, hretire] using hrejection

theorem extent_of_slotFailure_none {s : State} {p : PortId} {edits : List Edit} {l : Fin 16} {live d : Descriptor}
    {o : Source} (h : slotFailure s p edits l live d = none) (ho : d.source = some o) : s.extent o.handle ≠ none := by
  intro hnone
  have hsource : sourceFailure s p live d = some .sourceGone := by simp [sourceFailure, ho, hnone]
  unfold slotFailure at h
  rw [hsource] at h
  split_ifs at h

/-- At a blank start no slot comes to draw from a handle that is not allocated. -/
theorem blankSlot_draws_none {s : State} {h : Fin 32} {p : PortId} {l : Fin 16} (hnone : s.extent h = none)
    (hbefore : draws p h (s.slot l) = false) : draws p h (blankSlot s l) = false := by
  rcases blankSlot_cases s l with hsame | hfree | ⟨q, live, hslot, edits, hverdict, htouches, hretire, hnew⟩
  · rwa [hsame]
  · rw [hfree]
    rfl
  · rw [hnew]
    have hfit := slotFailure_none_of_apply hverdict hslot htouches hretire
    simp only [draws, Bool.and_eq_false_iff, decide_eq_false_iff_not]
    refine .inr fun hsource => ?_
    obtain ⟨o, ho, rfl⟩ := Option.map_eq_some_iff.1 hsource
    exact extent_of_slotFailure_none hfit ho hnone

/-- The recount makes the counts exact for the new slots. -/
theorem countsInv_recount {s : State} (hinv : countsInv s = true) :
    countsInv (recordCounts s.commit.slots (commitBlank { s with scan := s.scan.toLine .blank 0 }).st) = true := by
  rw [countsInv_iff] at hinv ⊢
  intro hr h p
  have hcount := hinv hr h p
  rw [recordCounts_extent]
  show drawing (tabulate (blankSlot s)) p h = ((s.extent h).map _).elim 0 _
  cases he : s.extent h with
  | none =>
    rw [he] at hcount
    refine drawing_eq_zero_iff.2 fun l => ?_
    rw [tabulate_get]
    exact blankSlot_draws_none he (drawing_eq_zero_iff.1 hcount l)
  | some e =>
    rw [he] at hcount
    have hcount' : drawing s.commit.slots p h = e.counts.get p := hcount
    show _ = (PerPort.tab _).get p
    rw [PerPort.get_tab, recount, hcount', Nat.add_sub_cancel_left]
    rfl

theorem countsInv_keptByEvents : KeptByEvents fun s => countsInv s = true where
  pending _ _ := id
  pixel _ _ := id
  resetAssert _ _ _ := countsInv_iff.2 fun h => nomatch h
  resetRelease _ _ _ := countsInv_reset rfl rfl
  select _ _ _ := id
  transactionStart _ _ := id
  transactionEnd s p t inbound h := by
    obtain ⟨_, _, hst⟩ := endTransaction_frame p t inbound s
    rw [hst]
    exact h
  expiry s p _ _ h := by
    have hkept : RecordsKept s (expirePort p s) := by
      have hport : RecordsKept s (s.setPort p (s.ports.get p).expire) := recordsKept_of_extents rfl
      refine (hport.trans (teardownStart_kept p .expiry _)).trans (recordsKept_of_extents ?_)
      rw [expirePort, Act.settleAndArbitrate, arbitrate_extents, settle_extents]
    refine countsInv_of_kept h (fun hr => (expirePort_resetN p s) ▸ hr) ?_ hkept
    obtain ⟨_, _, _, _, _, _, hst, -⟩ := expirePort_frame p s
    rw [hst]
    exact commitTeardown_drawing p s
  timeout s _ h := by
    rcases timeOutVote_frame s with hst | ⟨_, hst⟩ <;> rw [hst] <;> exact h
  request s p r a _ _ ha h := by
    refine countsInv_of_same ?_ (settle_resetN a) (settle_commit a) (settle_extents a)
    rcases ha.records with hkept | ⟨k, g, n, -, hfree, -, hst⟩
    · exact countsInv_of_kept h (fun hr => ha.frame.resetN ▸ hr) ha.drawing hkept
    · exact countsInv_alloc h ha.frame.resetN ha.drawing hfree hst
  grants s h := countsInv_of_same h (arbitrate_resetN s) (arbitrate_commit s) (arbitrate_extents s)
  lineZero s _ _ h := by
    obtain ⟨_, _, _, _, hst⟩ := lineZeroFetch_frame s
    rw [hst]
    exact h
  frame s _ _ h := by
    obtain ⟨_, _, _, _, _, _, _, _, _, hst⟩ := startFrame_frame s
    rw [hst]
    exact h
  line s _ _ h := by
    obtain ⟨_, _, _, _, _, _, _, _, hst⟩ := nextLine_frame s
    rw [hst]
    exact h
  blank s _ _ h := by
    have hkept : RecordsKept (recordCounts s.commit.slots (commitBlank { s with scan := s.scan.toLine .blank 0 }).st)
        (startBlank s) := by
      refine (extentsBlank_kept s _).trans (recordsKept_of_extents ?_)
      rw [startBlank, Act.settleAndArbitrate, arbitrate_extents, settle_extents, blankAct_extents]
    obtain ⟨_, _, _, _, _, _, hst⟩ := blankAct_frame s
    have hcommit : (startBlank s).commit = (commitBlank s).st.commit := by
      rw [startBlank, Act.settleAndArbitrate, arbitrate_commit, settle_commit, hst]
    have hreset : (startBlank s).resetN = s.resetN := by
      rw [startBlank, Act.settleAndArbitrate, arbitrate_resetN, settle_resetN, hst]
    refine countsInv_of_kept (countsInv_recount h) (fun hr => hreset ▸ hr) (.of_eq ?_) hkept
    rw [hcommit]
    rfl
  tick s b _ h := by
    obtain ⟨⟨_, _, _, _, _, hst, -⟩, -⟩ := tickBank_frame b s
    refine countsInv_of_same (countsInv_of_kept (t := (tickBank b s).st) h (fun hr => ?_) (.of_eq ?_) (tickBank_kept b s)) ?_ ?_ ?_
    · rwa [hst] at hr
    · rw [hst]
    · rw [Act.settleAndArbitrate, arbitrate_resetN, settle_resetN]
    · rw [Act.settleAndArbitrate, arbitrate_commit, settle_commit]
    · rw [Act.settleAndArbitrate, arbitrate_extents, settle_extents]
  completion s b a _ _ h := by
    have hkept : RecordsKept s (completeAccess b a s).settleAndArbitrate := by
      refine (completeAccess_kept b a s).trans (recordsKept_of_extents ?_)
      rw [Act.settleAndArbitrate, arbitrate_extents, settle_extents]
    obtain ⟨_, _, _, _, _, hst⟩ := completion_frame b a s
    refine countsInv_of_kept h (fun hr => ?_) (.of_eq ?_) hkept
    · rwa [hst] at hr
    · rw [hst]

end Sys2Proof.Machine
end

section
set_option Elab.async false

open Sys2Proof Sys2Proof.Machine

/-- Settles O58: an event keeps each record's rows or frees it, but for Alloc Extent, which takes rows that first fit
finds free. -/
theorem everyStepKeepsTheExtentsApart : Obligations.EveryStepKeepsTheExtentsApart :=
  fun _ _ h hstep => extentsInv_keptByEvents.step h hstep

/-- Settles O59: between blank starts no event changes what a port draws from or frees an extent that is drawn from; at
the blank start the recount follows the batches applied. -/
theorem everyStepKeepsTheCountsExact : Obligations.EveryStepKeepsTheCountsExact :=
  fun _ _ h hstep => countsInv_keptByEvents.step h hstep

end

section
/-! SUPPORT. Which sessions a step ends, and what a blank start leaves of sessions and plan. -/

set_option Elab.async false

namespace Sys2Proof.Machine

/-- Messages end the session of each port they name so, and leave the other session records. -/
theorem deliverAll_record (p : PortId) (l : List Msg) (s : State) :
    (l.foldl State.deliver s).session.records.get p =
      if .sessionEnd p ∈ l then absentSession else s.session.records.get p := by
  induction l generalizing s with
  | nil => rfl
  | cons m l ih =>
    rw [List.foldl_cons, ih]
    cases m with
    | respond q result payload => simp [State.deliver]
    | event q e =>
      have hsession : (s.deliver (.event q e)).session = s.session := by
        unfold State.deliver
        dsimp only
        split <;> rfl
      simp [hsession]
    | sessionEnd q =>
      by_cases hq : q = p
      · subst hq
        simp [State.deliver, State.setSession]
      · have hp : p ≠ q := fun h => hq h.symm
        simp [State.deliver, State.setSession, hp, PerPort.get_set_other]

/-- Settling ends the sessions the action ends, and leaves the other session records. -/
theorem settle_record (a : Act) (p : PortId) : a.settle.session.records.get p =
    if .sessionEnd p ∈ a.out.map Prod.snd then absentSession else a.st.session.records.get p := by
  rw [Act.settle, deliverAll_record]
  simp only [mem_arrange]

theorem commitBlank_endsNoSession (s : State) : (commitBlank s).endsNoSession := by
  intro p hp
  obtain ⟨m, hm, hend⟩ := List.mem_map.1 hp
  obtain ⟨q, -, hq⟩ := List.mem_flatMap.1 hm
  unfold batchEvent at hq
  split at hq
  · cases hq
  · rw [List.mem_singleton.1 hq] at hend
    cases hend
  · rw [List.mem_singleton.1 hq] at hend
    cases hend

/-- A blank start ends the sessions of the DRAINING ports. -/
theorem blankAct_sessionEnd (s : State) (p : PortId) :
    .sessionEnd p ∈ (blankAct s).out.map Prod.snd ↔ teardownEnds s p = true := by
  have hcommit := commitBlank_endsNoSession { s with scan := s.scan.toLine .blank 0 } p
  simp only [blankAct, Act.andThen_out, Act.change_out, List.map_append, List.mem_append, sessionsBlank]
  constructor
  · rintro ((((h | h) | h) | h) | h)
    · exact absurd h hcommit
    · exact absurd h ((extentsBlank_onExtents s _).2 p)
    · exact absurd h ((windowsBlank_frame _).2 p)
    · simpa using h
    · exact absurd h ((adoptionBlank_frame _).2 p)
  · exact fun h => .inl (.inr (by simpa using h))

/-- The session records after a blank start. -/
theorem startBlank_record (s : State) (p : PortId) : (startBlank s).session.records.get p =
    if s.sessionState p = .draining then absentSession else s.session.records.get p := by
  obtain ⟨_, _, _, _, _, _, hst⟩ := blankAct_frame s
  rw [startBlank, Act.settleAndArbitrate, arbitrate_session, settle_record, hst]
  simp only [blankAct_sessionEnd, teardownEnds, decide_eq_true_eq]

/-- What the adoption sees: the state the blocks leave before it. -/
def beforeAdoption (s : State) : State :=
  (((((commitBlank { s with scan := s.scan.toLine .blank 0 }).andThen (extentsBlank s)).change
    (paletteBlank (published s) (teardownEnds s))).andThen windowsBlank).andThen (sessionsBlank s)).st

theorem beforeAdoption_session (s : State) : (beforeAdoption s).session = s.session := by
  obtain ⟨_, _, _, _, h⟩ := beforeAdoption_frame s
  rw [beforeAdoption, h]

theorem beforeAdoption_slot (s : State) (l : Fin 16) : (beforeAdoption s).slot l = blankSlot s l := by
  obtain ⟨_, _, _, _, h⟩ := beforeAdoption_frame s
  rw [beforeAdoption, h]
  exact tabulate_get _ l

theorem startBlank_slot (s : State) (l : Fin 16) : (startBlank s).slot l = blankSlot s l := by
  obtain ⟨_, _, _, _, _, _, h⟩ := blankAct_frame s
  rw [State.slot, startBlank, Act.settleAndArbitrate, arbitrate_commit, settle_commit, h]
  exact tabulate_get _ l

/-- What the adoption leaves of the plan and the plan state. -/
theorem adoptionBlank_plan (s : State) :
    ((∀ q, s.session.planState ≠ .adopting q) ∧ (adoptionBlank s).st.session.plan = s.session.plan ∧
        (adoptionBlank s).st.session.planState = s.session.planState) ∨
      ∃ q, s.session.planState = .adopting q ∧ (adoptionBlank s).st.session.planState = .steady ∧
        (adoptionBlank s).st.session.plan = if (planUnfit s q.plan).isSome then s.session.plan else q.plan := by
  unfold adoptionBlank
  split
  · rename_i q hq
    refine .inr ⟨q, hq, ?_⟩
    split
    · rename_i f hf
      rw [hf]
      exact ⟨rfl, rfl⟩
    · rename_i hf
      rw [hf]
      exact ⟨rfl, rfl⟩
  · rename_i hq
    exact .inl ⟨hq, rfl, rfl⟩

/-- The plan and plan state after a blank start are those after the adoption. -/
theorem startBlank_adoption (s : State) :
    (startBlank s).session.plan = (adoptionBlank (beforeAdoption s)).st.session.plan ∧
      (startBlank s).session.planState = (adoptionBlank (beforeAdoption s)).st.session.planState := by
  rw [startBlank, Act.settleAndArbitrate, arbitrate_session, settle_plan, settle_planState, blankAct, Act.andThen_st,
    beforeAdoption]
  exact ⟨rfl, rfl⟩

/-- The plan and plan state after a blank start. -/
theorem startBlank_plan (s : State) :
    ((∀ q, s.session.planState ≠ .adopting q) ∧ (startBlank s).session.plan = s.session.plan ∧
        (startBlank s).session.planState = s.session.planState) ∨
      ∃ q, s.session.planState = .adopting q ∧ (startBlank s).session.planState = .steady ∧
        (startBlank s).session.plan = if (planUnfit (beforeAdoption s) q.plan).isSome then s.session.plan else q.plan := by
  rw [(startBlank_adoption s).1, (startBlank_adoption s).2, ← beforeAdoption_session s]
  exact adoptionBlank_plan (beforeAdoption s)

/-- No port that is JOINED or DRAINING is unfit for a plan adopted. -/
theorem portUnfit_none {s : State} {k : Plan} {p : PortId} (h : planUnfit s k = none) (hp : s.sessionState p ≠ .absent) :
    portUnfit s k p = none := by
  have hmem : p ∈ allPorts.filter fun p => decide (s.sessionState p ≠ .absent) := by simp [hp]
  simpa using List.findSome?_eq_none_iff.1 h p hmem

theorem slotInBand_of_fit {s : State} {k : Plan} {p : PortId} (h : portUnfit s k p = none) (l : Fin 16) :
    slotInBand (k.quotas.get p).band p (s.slot l) = true := by
  unfold portUnfit at h
  dsimp only at h
  split at h
  · cases h
  · split at h
    · rename_i hfit
      exact List.all_eq_true.1 (Bool.and_eq_true_iff.1 hfit).1 l (List.mem_finRange l)
    · cases h

end Sys2Proof.Machine
end

section
/-! SUPPORT. A plan that is decoded has every field in its range (R179). -/

set_option Elab.async false

namespace Sys2Proof.Machine

theorem inRange_of_within {lo hi v n : Nat} (h : within lo hi v = some n) : inRange lo hi n = true := by
  obtain ⟨hlo, hhi⟩ := within_bounds h
  simp [inRange, hlo, hhi]

theorem decodeBand_inRange {bytes : List Byte} {i : Nat} {o : Option Band} (h : decodeBand bytes i = some o) :
    (o.all fun b => decide (b.low ≤ b.high) && decide (b.high ≤ 63)) = true := by
  unfold decodeBand at h
  dsimp only at h
  split at h
  · obtain rfl := Option.some.inj h
    rfl
  · split at h
    · rename_i hband
      obtain rfl := Option.some.inj h
      simpa using hband
    · cases h

theorem decodeQuotas_inRange {bytes : List Byte} {i : Nat} {q : Quotas} (h : decodeQuotas bytes i = some q) :
    q.inRange = true := by
  simp only [decodeQuotas, Option.bind_eq_bind, Option.bind_eq_some_iff, Option.some.injEq] at h
  obtain ⟨layers, hlayers, extents, hextents, rows, hrows, blocks, hblocks, windows, hwindows, band, hband, rfl⟩ := h
  simp only [Quotas.inRange, inRange_of_within hlayers, inRange_of_within hextents, inRange_of_within hrows,
    inRange_of_within hblocks, inRange_of_within hwindows, decodeBand_inRange hband, Bool.and_self]

theorem decodeTiming_inRange {bytes : List Byte} {t : Timing} (h : decodeTiming bytes = some t) : t.inRange = true := by
  simp only [decodeTiming, Option.bind_eq_bind, Option.bind_eq_some_iff, Option.some.injEq] at h
  obtain ⟨width, hwidth, height, hheight, hblank, hhblank, vblank, hvblank, divider, hdivider, rfl⟩ := h
  simp only [Timing.inRange, inRange_of_within hwidth, inRange_of_within hheight, inRange_of_within hhblank,
    inRange_of_within hvblank, inRange_of_within hdivider, Bool.and_self]

theorem decodePlan_inRange {bytes : List Byte} {k : Plan} (h : decodePlan bytes = some k) : k.inRange = true := by
  simp only [decodePlan, Option.bind_eq_bind, Option.bind_eq_some_iff] at h
  obtain ⟨q0, h0, q1, h1, q2, h2, q3, h3, t, ht, h⟩ := h
  have hk : ∃ output, k = { quotas := ⟨q0, q1, q2, q3⟩, timing := t, background := fieldColor bytes 40, output } := by
    split at h
    · exact ⟨_, (Option.some.inj h).symm⟩
    · exact ⟨_, (Option.some.inj h).symm⟩
    · cases h
  obtain ⟨output, rfl⟩ := hk
  simp [Plan.inRange, allPorts, PerPort.get, decodeQuotas_inRange h0, decodeQuotas_inRange h1,
    decodeQuotas_inRange h2, decodeQuotas_inRange h3, decodeTiming_inRange ht]

end Sys2Proof.Machine
end

section
/-! PROOF. Depths, plans and the position in the frame at every step (R10, R27, R28, R73, R179, R180). -/

set_option Elab.async false

namespace Sys2Proof.Machine

/-! ### The invariant in parts -/

/-- The depths of the held slots are distinct, each in its owner's band, and each owner's session is as its slots say. -/
structure SlotsPlaced (s : State) : Prop where
  band : ∀ l state p d, s.slot l = .held state p d → inBand d.z.val (s.quotas p).band = true
  owner : ∀ l state p d, s.slot l = .held state p d → s.sessionState p = ownerState state
  apart : ∀ l m state p d state' q e, l ≠ m → s.slot l = .held state p d → s.slot m = .held state' q e → d.z ≠ e.z

/-- The plan in force and the plan proposed have the property. -/
def PlansHold (P : Plan → Prop) (u : SessionUnit) : Prop :=
  P u.plan ∧ ∀ q, u.planState.proposal? = some q → P q.plan

/-- The timing in force is in range and the position lies in the frame. -/
structure PositionInFrame (c : ScanEngine) : Prop where
  timing : c.timing.inRange = true
  line : c.lineNo < c.timing.lines c.phase
  pixel : c.pixelTime < c.timing.width + c.timing.hblank

/-- What a step has to keep of depths, plans and position. -/
structure DepthsAndPlan (s : State) : Prop where
  slots : s.resetN = true → SlotsPlaced s
  valid : s.resetN = true → PlansHold (fun k => planValid k = true) s.session
  ranges : PlansHold (fun k => k.inRange = true) s.session
  position : PositionInFrame s.scan

theorem plansHold_iff {P : Plan → Bool} {u : SessionUnit} :
    PlansHold (fun k => P k = true) u ↔ P u.plan = true ∧ (u.planState.proposal?.all fun q => P q.plan) = true := by
  refine and_congr_right fun _ => ?_
  cases u.planState.proposal? <;> simp

theorem slotsPlaced_iff {s : State} : SlotsPlaced s ↔ (∀ l, slotInv s (s.slot l) = true) ∧
    ∀ l m, l = m ∨ depthsDiffer (s.slot l) (s.slot m) = true := by
  constructor
  · rintro ⟨hband, howner, hapart⟩
    refine ⟨fun l => ?_, fun l m => ?_⟩
    · cases hl : s.slot l with
      | free => rfl
      | held state p d => simp [slotInv, hband l state p d hl, howner l state p d hl]
    · refine or_iff_not_imp_left.2 fun hne => ?_
      cases hl : s.slot l with
      | free => simp [depthsDiffer]
      | held state p d =>
        cases hm : s.slot m with
        | free => simp [depthsDiffer]
        | held state' q e => simpa [depthsDiffer] using hapart l m _ _ _ _ _ _ hne hl hm
  · rintro ⟨hslot, hdiffer⟩
    refine ⟨fun l state p d hl => ?_, fun l state p d hl => ?_, fun l m state p d state' q e hne hl hm => ?_⟩
    · have h := hslot l
      rw [hl] at h
      exact (Bool.and_eq_true_iff.1 h).1
    · have h := hslot l
      rw [hl] at h
      exact of_decide_eq_true (Bool.and_eq_true_iff.1 h).2
    · have h := (hdiffer l m).resolve_left hne
      rw [hl, hm] at h
      exact of_decide_eq_true h

theorem depthsAndPlan_iff {s : State} : slotsInv s = true ∧ timingInv s = true ↔ DepthsAndPlan s := by
  have hslots : slotsInv s = true ↔
      (s.resetN = true → SlotsPlaced s ∧ PlansHold (fun k => planValid k = true) s.session) := by
    simp only [slotsPlaced_iff, plansHold_iff]
    simp [slotsInv, or_iff_not_imp_left, and_assoc]
  have htiming : timingInv s = true ↔ PlansHold (fun k => k.inRange = true) s.session ∧ PositionInFrame s.scan := by
    rw [plansHold_iff (P := Plan.inRange)]
    simp only [timingInv, Bool.and_eq_true, decide_eq_true_eq]
    exact ⟨fun ⟨⟨⟨⟨ht, hk⟩, hq⟩, hl⟩, hp⟩ => ⟨⟨hk, hq⟩, ht, hl, hp⟩,
      fun ⟨⟨hk, hq⟩, ht, hl, hp⟩ => ⟨⟨⟨⟨ht, hk⟩, hq⟩, hl⟩, hp⟩⟩
  rw [hslots, htiming]
  exact ⟨fun ⟨h, hk, hp⟩ => ⟨fun hr => (h hr).1, fun hr => (h hr).2, hk, hp⟩,
    fun h => ⟨fun hr => ⟨h.slots hr, h.valid hr⟩, h.ranges, h.position⟩⟩

/-- Each plan in force or proposed was so before, or is valid and in range. -/
structure PlansKept (u v : SessionUnit) : Prop where
  hold : ∀ P : Plan → Prop, (∀ k, planValid k = true → k.inRange = true → P k) → PlansHold P u → PlansHold P v

theorem PlansKept.refl (u : SessionUnit) : PlansKept u u := ⟨fun _ _ => id⟩

theorem PlansKept.of_steady {u v : SessionUnit} (hplan : v.plan = u.plan)
    (h : v.planState = u.planState ∨ v.planState = .steady) : PlansKept u v := by
  refine ⟨fun P _ hu => ⟨hplan ▸ hu.1, fun q hq => ?_⟩⟩
  rcases h with h | h
  · exact hu.2 q (h ▸ hq)
  · rw [h] at hq
    cases hq

theorem PlansKept.of_proposals {u v : SessionUnit} (hplan : v.plan = u.plan) (h : ∀ q, v.planState.proposal? = some q →
    ∃ q', u.planState.proposal? = some q' ∧ q.plan = q'.plan) : PlansKept u v := by
  refine ⟨fun P _ hu => ⟨hplan ▸ hu.1, fun q hq => ?_⟩⟩
  obtain ⟨q', hq', hplan'⟩ := h q hq
  exact hplan' ▸ hu.2 q' hq'

theorem DepthsAndPlan.of_kept {s t : State} (h : DepthsAndPlan s) (hreset : t.resetN = s.resetN)
    (hslots : s.resetN = true → SlotsPlaced s → SlotsPlaced t) (hplans : PlansKept s.session t.session)
    (hposition : PositionInFrame t.scan) : DepthsAndPlan t where
  slots hr := hslots (hreset ▸ hr) (h.slots (hreset ▸ hr))
  valid hr := hplans.hold _ (fun _ hk _ => hk) (h.valid (hreset ▸ hr))
  ranges := hplans.hold _ (fun _ _ hk => hk) h.ranges
  position := hposition

theorem SlotsPlaced.of_same {s t : State} (h : SlotsPlaced s) (hslots : t.commit.slots = s.commit.slots)
    (hsessions : ∀ p, t.sessionState p = s.sessionState p) (hplan : t.session.plan = s.session.plan) :
    SlotsPlaced t := by
  have hslot : t.slot = s.slot := funext fun l => by rw [State.slot, State.slot, hslots]
  refine ⟨fun l state p d hl => ?_, fun l state p d hl => ?_, fun l m state p d state' q e hne hl hm => ?_⟩
  · rw [State.quotas, hplan]
    exact h.band l state p d (hslot ▸ hl)
  · rw [hsessions]
    exact h.owner l state p d (hslot ▸ hl)
  · exact h.apart l m _ _ _ _ _ _ hne (hslot ▸ hl) (hslot ▸ hm)

/-- What leaves the slots, sessions, plans and position leaves the invariant. -/
theorem DepthsAndPlan.of_same {s t : State} (h : DepthsAndPlan s) (hreset : t.resetN = s.resetN)
    (hslots : t.commit.slots = s.commit.slots) (hsession : t.session = s.session)
    (hposition : PositionInFrame t.scan) : DepthsAndPlan t :=
  h.of_kept hreset (fun _ hs => hs.of_same hslots (fun p => by rw [State.sessionState, hsession]; rfl) (by rw [hsession]))
    (hsession ▸ .refl _) hposition

/-! ### The position -/

theorem Timing.inRange_iff {t : Timing} : t.inRange = true ↔
    (64 ≤ t.width ∧ t.width ≤ 1024) ∧ (64 ≤ t.height ∧ t.height ≤ 768) ∧ (32 ≤ t.hblank ∧ t.hblank ≤ 1023) ∧
      (4 ≤ t.vblank ∧ t.vblank ≤ 255) ∧ 1 ≤ t.divider ∧ t.divider ≤ 16 := by
  simp [Timing.inRange, Machine.inRange, and_assoc]

theorem PositionInFrame.nextPixel {c : ScanEngine} (h : PositionInFrame c) : PositionInFrame c.nextPixel := by
  obtain ⟨htiming, hline, hpixel⟩ := h
  unfold ScanEngine.nextPixel
  split
  · have hlt : c.pixelTime < c.timing.width + c.timing.hblank - 1 := ‹_›
    exact ⟨htiming, hline, show c.pixelTime + 1 < c.timing.width + c.timing.hblank by omega⟩
  · split
    · rename_i hquiet
      simp only [ScanEngine.quietLineEnd, Bool.and_eq_true, decide_eq_true_eq] at hquiet
      obtain ⟨hphase, hlines⟩ := hquiet
      refine ⟨htiming, ?_, Nat.lt_of_le_of_lt (Nat.zero_le _) hpixel⟩
      show c.lineNo + 1 < c.timing.lines c.phase
      rw [hphase]
      show c.lineNo + 1 < c.timing.vblank
      omega
    · exact ⟨htiming, hline, hpixel⟩

/-- The first pixel time of a line of the phase is a position in the frame. -/
theorem positionInFrame_toLine {c : ScanEngine} (htiming : c.timing.inRange = true) {phase : Phase} {line : Nat}
    (hline : line < c.timing.lines phase) : PositionInFrame (c.toLine phase line) := by
  refine ⟨htiming, hline, ?_⟩
  have hwidth := (Timing.inRange_iff.1 htiming).1.1
  show 0 < c.timing.width + c.timing.hblank
  omega

theorem PositionInFrame.of_eq {c c' : ScanEngine} (h : PositionInFrame c) (htiming : c'.timing = c.timing)
    (hphase : c'.phase = c.phase) (hline : c'.lineNo = c.lineNo) (hpixel : c'.pixelTime = c.pixelTime) :
    PositionInFrame c' := by
  obtain ⟨h1, h2, h3⟩ := h
  refine ⟨htiming ▸ h1, ?_, ?_⟩
  · rw [htiming, hphase, hline]
    exact h2
  · rw [htiming, hpixel]
    exact h3

/-! ### Slots and sessions -/

theorem setSession_sessionState_same (s : State) (p : PortId) (r : Session) :
    (s.setSession p r).sessionState p = r.state := by
  simp [State.sessionState, State.setSession]

theorem setSession_sessionState_other (s : State) {p q : PortId} (r : Session) (h : q ≠ p) :
    (s.setSession p r).sessionState q = s.sessionState q := by
  simp [State.sessionState, State.setSession, PerPort.get_set_other _ _ h]

/-- A session record replaced by one of the same state changes no session state. -/
theorem setSession_sessionState_of_eq (s : State) (p : PortId) {r : Session}
    (h : r.state = s.sessionState p) (q : PortId) : (s.setSession p r).sessionState q = s.sessionState q := by
  by_cases hq : q = p
  · subst hq
    rw [setSession_sessionState_same, h]
  · exact setSession_sessionState_other s r hq

theorem retireFor_held {p : PortId} {r : Slot} {state : HeldState} {q : PortId} {d : Descriptor}
    (h : r.retireFor p = .held state q d) : ∃ old, r = .held old q d ∧
      state = if q = p ∧ old = .owned then .retiring else old := by
  unfold Slot.retireFor at h
  split at h
  · split at h
    · rename_i hq
      cases h
      exact ⟨.owned, rfl, by simp [hq]⟩
    · rename_i hq
      cases h
      exact ⟨.owned, rfl, by simp [hq]⟩
  · rename_i hnot
    subst h
    refine ⟨state, rfl, ?_⟩
    rw [if_neg]
    rintro ⟨-, rfl⟩
    exact hnot q d rfl

/-- The departure of a JOINED port leaves its slots RETIRING and its session DRAINING. -/
theorem SlotsPlaced.teardown {s t : State} {p : PortId} {cause : TeardownCause} (h : SlotsPlaced s)
    (hjoined : s.sessionState p = .joined) (hslots : t.commit.slots = (commitTeardown p s).commit.slots)
    (hsessions : t.session.records = (sessionTeardown p cause s).session.records)
    (hplan : t.session.plan = s.session.plan) : SlotsPlaced t := by
  have hslot : ∀ l, t.slot l = (s.slot l).retireFor p := fun l => by
    rw [State.slot, hslots]
    exact tabulate_get _ l
  have hstate : ∀ q, t.sessionState q = if q = p then .draining else s.sessionState q := fun q => by
    rw [State.sessionState, hsessions]
    split
    · rename_i hq
      subst hq
      exact setSession_sessionState_same _ _ _
    · rename_i hq
      exact setSession_sessionState_other _ _ hq
  refine ⟨fun l state q d hl => ?_, fun l state q d hl => ?_, fun l m state q d state' q' e hne hl hm => ?_⟩
  · rw [hslot] at hl
    obtain ⟨old, hold, -⟩ := retireFor_held hl
    rw [State.quotas, hplan]
    exact h.band l old q d hold
  · rw [hslot] at hl
    obtain ⟨old, hold, hnew⟩ := retireFor_held hl
    have howner := h.owner l old q d hold
    rw [hstate]
    by_cases hq : q = p
    · subst hq
      rw [hjoined] at howner
      cases old with
      | owned => rw [hnew, if_pos rfl, if_pos ⟨rfl, rfl⟩]; rfl
      | retiring => cases howner
    · rw [if_neg hq, hnew, if_neg fun h => hq h.1]
      exact howner
  · rw [hslot] at hl hm
    obtain ⟨_, hl, -⟩ := retireFor_held hl
    obtain ⟨_, hm, -⟩ := retireFor_held hm
    exact h.apart l m _ _ _ _ _ _ hne hl hm

/-- A port's session opened when it was ABSENT: no slot is its own. -/
theorem SlotsPlaced.join {s : State} {p : PortId} {r : Session} (h : SlotsPlaced s) (habsent : s.sessionState p = .absent) :
    SlotsPlaced (s.setSession p r) := by
  refine ⟨h.band, fun l state q d hl => ?_, h.apart⟩
  have howner := h.owner l state q d hl
  have hq : q ≠ p := by
    rintro rfl
    rw [habsent] at howner
    cases state <;> cases howner
  rw [setSession_sessionState_other s r hq]
  exact howner

theorem depthHeld_eq_false_iff {s : State} {p : PortId} {z : Fin 64} :
    depthHeld s p z = false ↔ ∀ l d, s.slot l = .held .owned p d → d.z ≠ z := by
  simp only [depthHeld, List.any_eq_false, List.mem_finRange, forall_const]
  refine forall_congr' fun l => ?_
  cases s.slot l with
  | free => simp
  | held state q e =>
    cases state with
    | retiring => simp
    | owned => simp

theorem depth_ne_of_disjoint {k : Plan} (hvalid : planValid k = true) {p q : PortId} (hne : p ≠ q) {z w : Fin 64}
    (hz : inBand z.val (k.quotas.get p).band = true) (hw : inBand w.val (k.quotas.get q).band = true) : z ≠ w := by
  rintro rfl
  have hdisjoint := (planValid_iff.1 hvalid).2.1 p q hne
  cases hp : (k.quotas.get p).band with
  | none => simp [hp, inBand] at hz
  | some a =>
    cases hq : (k.quotas.get q).band with
    | none => simp [hq, inBand] at hw
    | some b =>
      simp only [hp, hq, inBand, Bool.and_eq_true, decide_eq_true_eq] at hz hw
      have := bandsDisjoint_iff.1 hdisjoint a b hp hq
      omega

end Sys2Proof.Machine
end

section
/-! PROOF. Depths, plans and position at requests, transactions and the blank start. -/

set_option Elab.async false

namespace Sys2Proof.Machine

/-! ### Requests -/

/-- A slot whose descriptor is replaced by one of the same depth. -/
theorem SlotsPlaced.setSlot {s : State} {l : Fin 16} {state : HeldState} {p : PortId} {d d' : Descriptor}
    (h : SlotsPlaced s) (hslot : s.slot l = .held state p d) (hz : d'.z = d.z) :
    SlotsPlaced (s.setSlot l (.held state p d')) := by
  have hold : ∀ m st q e, (s.setSlot l (.held state p d')).slot m = .held st q e →
      ∃ e', s.slot m = .held st q e' ∧ e'.z = e.z := fun m st q e hm => by
    by_cases hml : m = l
    · subst hml
      rw [State.setSlot_slot_same] at hm
      cases hm
      exact ⟨d, hslot, hz.symm⟩
    · rw [State.setSlot_slot_other _ _ hml] at hm
      exact ⟨e, hm, rfl⟩
  refine ⟨fun m st q e hm => ?_, fun m st q e hm => ?_, fun m n st q e st' q' f hne hm hn => ?_⟩
  · obtain ⟨e', he', hz'⟩ := hold m st q e hm
    rw [← hz']
    exact h.band m st q e' he'
  · obtain ⟨e', he', -⟩ := hold m st q e hm
    exact h.owner m st q e' he'
  · obtain ⟨e', he', hz'⟩ := hold m st q e hm
    obtain ⟨f', hf', hw'⟩ := hold n st' q' f hn
    rw [← hz', ← hw']
    exact h.apart m n _ _ _ _ _ _ hne he' hf'

/-- A slot claimed at a depth of the port's band that no OWNED slot of the port holds. -/
theorem SlotsPlaced.claim {s : State} {l : Fin 16} {p : PortId} {d : Descriptor} (h : SlotsPlaced s)
    (hvalid : planValid s.session.plan = true) (hjoined : s.sessionState p = .joined)
    (hband : inBand d.z.val (s.quotas p).band = true) (hdepth : depthHeld s p d.z = false) :
    SlotsPlaced (s.setSlot l (.held .owned p d)) := by
  have hnew : ∀ m st q e, (s.setSlot l (.held .owned p d)).slot m = .held st q e →
      (m = l ∧ st = .owned ∧ q = p ∧ e = d) ∨ (m ≠ l ∧ s.slot m = .held st q e) := fun m st q e hm => by
    by_cases hml : m = l
    · subst hml
      rw [State.setSlot_slot_same] at hm
      cases hm
      exact .inl ⟨rfl, rfl, rfl, rfl⟩
    · rw [State.setSlot_slot_other _ _ hml] at hm
      exact .inr ⟨hml, hm⟩
  have hfree : ∀ m st q e, s.slot m = .held st q e → e.z ≠ d.z := fun m st q e hm => by
    by_cases hq : q = p
    · subst hq
      have howner := h.owner m st q e hm
      cases st with
      | owned => exact depthHeld_eq_false_iff.1 hdepth m e hm
      | retiring =>
        rw [hjoined] at howner
        cases howner
    · exact depth_ne_of_disjoint hvalid hq (h.band m st q e hm) hband
  refine ⟨fun m st q e hm => ?_, fun m st q e hm => ?_, fun m n st q e st' q' f hne hm hn => ?_⟩
  · rcases hnew m st q e hm with ⟨-, -, rfl, rfl⟩ | ⟨-, hm⟩
    · exact hband
    · exact h.band m st q e hm
  · rcases hnew m st q e hm with ⟨-, rfl, rfl, -⟩ | ⟨-, hm⟩
    · exact hjoined
    · exact h.owner m st q e hm
  · rcases hnew m st q e hm with ⟨hml, -, -, hd⟩ | ⟨-, hold⟩
    · rcases hnew n st' q' f hn with ⟨hnl, -, -, -⟩ | ⟨-, hold'⟩
      · exact absurd (hml.trans hnl.symm) hne
      · exact hd ▸ (hfree n _ _ _ hold').symm
    · rcases hnew n st' q' f hn with ⟨-, -, -, hd⟩ | ⟨-, hold'⟩
      · exact hd ▸ hfree m _ _ _ hold
      · exact h.apart m n _ _ _ _ _ _ hne hold hold'

theorem countAccept_proposal (q : Proposal) (p : PortId) :
    ∃ v, (countAccept q p).proposal? = some v ∧ v.plan = q.plan := by
  unfold countAccept
  dsimp only
  split <;> exact ⟨_, rfl, rfl⟩

theorem RequestChange.slotsPlaced {moves : Prop} {p : PortId} {s u : State} (hchange : RequestChange moves p s u)
    (hvalid : planValid s.session.plan = true) (h : SlotsPlaced s) : SlotsPlaced u := by
  cases hchange with
  | join lease view habsent =>
    obtain ⟨_, _, hu⟩ := transferJoin_frame p
      (s.setSession p { state := .joined, lease, counter := lease, view, cause := .none })
    rw [hu]
    exact (h.join habsent).of_same rfl (fun _ => rfl) rfl
  | setView view =>
    exact h.of_same rfl (setSession_sessionState_of_eq s p rfl) rfl
  | claimLayer l z hjoined hfree hband hdepth => exact h.claim hvalid hjoined hband hdepth
  | move l d x y before after hslot =>
    obtain ⟨_, hu⟩ := noticeMove_frame before after (s.setSlot l (.held .owned p { d with x, y }))
    rw [hu]
    exact (h.setSlot (d' := { d with x, y }) hslot rfl).of_same rfl (fun _ => rfl) rfl
  | grant k q =>
    obtain ⟨_, hu⟩ := setGrant_frame k q .granted s
    rw [hu]
    exact h.of_same rfl (fun _ => rfl) rfl
  | seek c =>
    obtain ⟨_, _, hu⟩ := setCursor_frame p c s
    rw [hu]
    exact h.of_same rfl (fun _ => rfl) rfl
  | _ => exact h.of_same rfl (fun _ => rfl) rfl

theorem RequestChange.plansKept {moves : Prop} {p : PortId} {s u : State} (hchange : RequestChange moves p s u) :
    PlansKept s.session u.session := by
  cases hchange with
  | join lease view =>
    obtain ⟨_, _, hu⟩ := transferJoin_frame p
      (s.setSession p { state := .joined, lease, counter := lease, view, cause := .none })
    rw [hu]
    exact .of_steady rfl (.inl rfl)
  | propose payload k q hdecode hvalid hq =>
    refine ⟨fun P hgood hs => ⟨hs.1, fun v hv => ?_⟩⟩
    obtain rfl := Option.some.inj (hq.symm.trans hv)
    exact hgood k hvalid (decodePlan_inRange hdecode)
  | reject => exact .of_steady rfl (.inr rfl)
  | accept q hvoting =>
    refine .of_proposals rfl fun v hv => ?_
    obtain ⟨v', hv', hplan⟩ := countAccept_proposal q p
    obtain rfl := Option.some.inj (hv'.symm.trans hv)
    exact ⟨q, by rw [hvoting]; rfl, hplan⟩
  | move l d x y before after =>
    obtain ⟨_, hu⟩ := noticeMove_frame before after (s.setSlot l (.held .owned p { d with x, y }))
    rw [hu]
    exact .refl _
  | grant k q =>
    obtain ⟨_, hu⟩ := setGrant_frame k q .granted s
    rw [hu]
    exact .refl _
  | seek c =>
    obtain ⟨_, _, hu⟩ := setCursor_frame p c s
    rw [hu]
    exact .refl _
  | _ => exact .of_steady rfl (.inl rfl)

theorem Serves.depthsAndPlan {moves : Prop} {p : PortId} {s : State} {a : Act} (hserves : Serves moves p s a) (hr : s.resetN = true)
    (h : DepthsAndPlan s) : DepthsAndPlan a.st := by
  have hposition : PositionInFrame a.st.scan := by
    rw [hserves.frame.scan]
    exact h.position
  cases hserves with
  | change u result payload o l e hchange =>
    exact h.of_kept hchange.frame.resetN (fun _ => hchange.slotsPlaced (h.valid hr).1) hchange.plansKept hposition
  | leave hjoined =>
    obtain ⟨⟨q, _, _, _, hst, hq⟩, -⟩ := teardownStart_frame p .leave s
    rw [Act.andThen_st, answer_st, hst] at hposition ⊢
    exact h.of_kept rfl (fun _ hs => hs.teardown hjoined rfl rfl rfl) (.of_steady rfl hq) hposition
  | free k e =>
    obtain ⟨_, _, _, hst⟩ := (releaseExtent_onExtents k s).1
    rw [Act.andThen_st, answer_st, hst] at hposition ⊢
    exact h.of_same rfl rfl rfl hposition
  | revoke k q =>
    obtain ⟨_, _, _, hst⟩ := (revokeGrant_onExtents k p q s).1
    rw [Act.andThen_st, answer_st, hst] at hposition ⊢
    exact h.of_same rfl rfl rfl hposition
  | begin j u hu =>
    obtain ⟨_, _, hst⟩ := startJob_emptyBuffer_frame (j := j) hu
    rw [Act.quiet_st, hst] at hposition ⊢
    exact h.of_same rfl rfl rfl hposition
  | serve j bytes =>
    obtain ⟨_, _, _, hst⟩ := (finishRead_onExtents p j bytes s).1
    rw [hst] at hposition ⊢
    exact h.of_same rfl rfl rfl hposition

theorem reloadLease_sessionState (p : PortId) (s : State) (q : PortId) :
    (reloadLease p s).sessionState q = s.sessionState q := by
  unfold reloadLease
  dsimp only
  split
  · exact setSession_sessionState_of_eq s p (by rfl) q
  · rfl

/-- The end of a transaction changes no session state. -/
theorem endTransaction_sessionState (p : PortId) (t : Transaction) (bytes : List Byte) (s : State) (q : PortId) :
    (endTransaction p t bytes s).sessionState q = s.sessionState q := by
  unfold endTransaction
  dsimp only
  generalize (if t.delivered bytes.length = true then _ else _ : PortController) = c
  unfold takeInbound
  split
  · rfl
  · rfl
  · rfl
  · unfold acceptRequest
    dsimp only
    split
    · rfl
    · exact reloadLease_sessionState p _ q

theorem endTransaction_plans (p : PortId) (t : Transaction) (bytes : List Byte) (s : State) :
    PlansKept s.session (endTransaction p t bytes s).session := by
  obtain ⟨_, _, hst⟩ := endTransaction_frame p t bytes s
  rw [hst]
  exact .of_steady rfl (.inl rfl)

/-! ### The blank start -/

/-- A slot that is held after a blank start was OWNED before it. It keeps its descriptor, or takes a projection that
passed the fit checks; either way its depth is its projected one when the port's batch applies. -/
theorem blankSlot_held {s : State} {l : Fin 16} {state : HeldState} {p : PortId} {d : Descriptor} (h : SlotsPlaced s)
    (hl : blankSlot s l = .held state p d) : state = .owned ∧ ∃ live, s.slot l = .held .owned p live ∧
      (∀ edits, verdict s p = .apply edits → projectedDepth s p edits l = some d.z) ∧
      (d = live ∨ ∃ edits, verdict s p = .apply edits ∧ slotFailure s p edits l live d = none) := by
  unfold blankSlot at hl
  split at hl
  · cases hl
  · rename_i q e hslot
    have hends : teardownEnds s q = true := decide_eq_true (h.owner l _ _ _ hslot)
    rw [if_pos hends] at hl
    cases hl
  · rename_i q live hslot
    split at hl
    · rename_i edits hverdict
      unfold applySlot at hl
      split at hl
      · rename_i htouches
        dsimp only at hl
        split at hl
        · cases hl
        · rename_i hretire
          have hretire : (project l live edits).retire = false := by simpa using hretire
          cases hl
          refine ⟨rfl, live, hslot, fun edits' h' => ?_, .inr ⟨edits, hverdict, ?_⟩⟩
          · obtain rfl := Verdict.apply.inj (hverdict.symm.trans h')
            exact projectedDepth_iff.2 ⟨live, hslot, hretire, rfl⟩
          · exact slotFailure_none_of_apply hverdict hslot htouches hretire
      · rename_i huntouched
        cases hl
        refine ⟨rfl, d, hslot, fun edits' h' => ?_, .inl rfl⟩
        obtain rfl := Verdict.apply.inj (hverdict.symm.trans h')
        have hnone : editsFor l edits = [] := by
          simpa [touches, hslot, Slot.ownedBy, editsFor, List.filter_eq_nil_iff] using huntouched
        have hproject : project l d edits = ⟨d, false⟩ := by rw [project, hnone]; rfl
        exact projectedDepth_iff.2 ⟨d, hslot, by rw [hproject], by rw [hproject]⟩
    · rename_i hverdict
      cases hl
      exact ⟨rfl, d, hslot, fun edits' h' => absurd h' (hverdict edits'), .inl rfl⟩

theorem slotFailure_none {s : State} {p : PortId} {edits : List Edit} {l : Fin 16} {live d : Descriptor}
    (h : slotFailure s p edits l live d = none) :
    depthClash s p edits l d.z = false ∧ inBand d.z.val (s.quotas p).band = true := by
  unfold slotFailure at h
  split at h
  · cases h
  · split at h
    · cases h
    · rename_i hclash hband
      exact ⟨by simpa using hclash, by simpa using hband⟩

theorem blankSlot_inBand {s : State} {l : Fin 16} {state : HeldState} {p : PortId} {d : Descriptor} (h : SlotsPlaced s)
    (hl : blankSlot s l = .held state p d) : inBand d.z.val (s.quotas p).band = true := by
  obtain ⟨-, live, hslot, -, rfl | ⟨edits, -, hfit⟩⟩ := blankSlot_held h hl
  · exact h.band l _ _ _ hslot
  · exact (slotFailure_none hfit).2

theorem depth_ne_of_no_clash {s : State} {p : PortId} {edits : List Edit} {l m : Fin 16} {z w : Fin 64}
    (h : depthClash s p edits l z = false) (hne : m ≠ l) (hm : projectedDepth s p edits m = some w) : z ≠ w := by
  rintro rfl
  have := List.any_eq_false.1 h m (List.mem_finRange m)
  simp [hne, hm] at this

/-- A blank start leaves the depths distinct. -/
theorem blankSlot_apart {s : State} (h : SlotsPlaced s) (hvalid : planValid s.session.plan = true) {l m : Fin 16}
    {state state' : HeldState} {p q : PortId} {d e : Descriptor} (hne : l ≠ m)
    (hl : blankSlot s l = .held state p d) (hm : blankSlot s m = .held state' q e) : d.z ≠ e.z := by
  by_cases hpq : p = q
  · subst hpq
    obtain ⟨-, live, hslot, hdepth, hd⟩ := blankSlot_held h hl
    obtain ⟨-, live', hslot', hdepth', he⟩ := blankSlot_held h hm
    rcases hd with rfl | ⟨edits, hverdict, hfit⟩
    · rcases he with rfl | ⟨edits, hverdict, hfit⟩
      · exact h.apart l m _ _ _ _ _ _ hne hslot hslot'
      · exact (depth_ne_of_no_clash (slotFailure_none hfit).1 hne (hdepth edits hverdict)).symm
    · exact depth_ne_of_no_clash (slotFailure_none hfit).1 hne.symm (hdepth' edits hverdict)
  · exact depth_ne_of_disjoint hvalid hpq (blankSlot_inBand h hl) (blankSlot_inBand h hm)

/-- The depths lie in the bands of the plan a blank start leaves in force. -/
theorem startBlank_inBand {s : State} {l : Fin 16} {state : HeldState} {p : PortId} {d : Descriptor} (h : SlotsPlaced s)
    (hl : blankSlot s l = .held state p d) : inBand d.z.val ((startBlank s).quotas p).band = true := by
  have hold := blankSlot_inBand h hl
  rcases startBlank_plan s with ⟨-, hplan, -⟩ | ⟨q, -, -, hplan⟩
  · rw [State.quotas, hplan]
    exact hold
  · rw [State.quotas, hplan]
    split
    · exact hold
    · rename_i hfit
      obtain ⟨-, live, hslot, -⟩ := blankSlot_held h hl
      have hjoined : (beforeAdoption s).sessionState p ≠ .absent := by
        rw [State.sessionState, beforeAdoption_session]
        exact fun habsent => nomatch (h.owner l _ _ _ hslot).symm.trans habsent
      have hband := slotInBand_of_fit (portUnfit_none (by simpa using hfit) hjoined) l
      rw [beforeAdoption_slot, hl] at hband
      simpa [slotInBand] using hband

theorem startBlank_slotsPlaced {s : State} (h : SlotsPlaced s) (hvalid : planValid s.session.plan = true) :
    SlotsPlaced (startBlank s) := by
  refine ⟨fun l state p d hl => ?_, fun l state p d hl => ?_, fun l m state p d state' q e hne hl hm => ?_⟩
  · rw [startBlank_slot] at hl
    exact startBlank_inBand h hl
  · rw [startBlank_slot] at hl
    obtain ⟨rfl, live, hslot, -⟩ := blankSlot_held h hl
    have howner : s.sessionState p = .joined := h.owner l _ _ _ hslot
    rw [State.sessionState, startBlank_record, if_neg (by simp [howner])]
    exact howner
  · rw [startBlank_slot] at hl hm
    exact blankSlot_apart h hvalid hne hl hm

theorem startBlank_plansKept (s : State) : PlansKept s.session (startBlank s).session := by
  rcases startBlank_plan s with ⟨-, hplan, hstate⟩ | ⟨q, hq, hstate, hplan⟩
  · exact .of_steady hplan (.inl hstate)
  · refine ⟨fun P _ hs => ⟨?_, fun v hv => ?_⟩⟩
    · rw [hplan]
      split
      · exact hs.1
      · exact hs.2 q (by rw [hq]; rfl)
    · rw [hstate] at hv
      cases hv

/-! ### Every event -/

theorem countFrame_sessionState (s : State) (p : PortId) : (countFrame s).sessionState p = s.sessionState p := by
  unfold State.sessionState countFrame
  rw [PerPort.get_tab]
  unfold Session.runDown
  split <;> rfl

theorem countFrame_plansKept (s : State) : PlansKept s.session (countFrame s).session := by
  refine .of_proposals rfl fun q hq => ?_
  rw [show (countFrame s).session.planState = s.session.planState.runDown from rfl] at hq
  unfold PlanState.runDown at hq
  split at hq
  · rename_i v hv
    obtain rfl := Option.some.inj hq
    exact ⟨v, by rw [hv]; rfl, rfl⟩
  · exact ⟨q, hq, rfl⟩

theorem depthsAndPlan_reset {s : State} (hslots : s.resetN = true → s.commit.slots = Vector.replicate 16 .free)
    (hsession : s.session = State.reset.session) (hscan : s.scan = resetScan) : DepthsAndPlan s := by
  have hgood : PlansHold (fun k => planValid k = true) State.reset.session ∧
      PlansHold (fun k => k.inRange = true) State.reset.session :=
    ⟨⟨by decide, fun q hq => nomatch hq⟩, ⟨by decide, fun q hq => nomatch hq⟩⟩
  have hfree : s.resetN = true → ∀ l state p d, s.slot l ≠ .held state p d := fun hr l state p d hl => by
    simp [State.slot, hslots hr] at hl
  refine ⟨fun hr => ⟨fun l _ _ _ hl => absurd hl (hfree hr l _ _ _), fun l _ _ _ hl => absurd hl (hfree hr l _ _ _),
    fun l _ _ _ _ _ _ _ _ hl => absurd hl (hfree hr l _ _ _)⟩, fun _ => hsession ▸ hgood.1, hsession ▸ hgood.2, ?_⟩
  rw [hscan]
  exact ⟨by decide, by decide, by decide⟩

theorem depthsAndPlan_keptByEvents : KeptByEvents DepthsAndPlan where
  pending _ _ h := h.of_same rfl rfl rfl h.position
  pixel _ _ h := h.of_same rfl rfl rfl h.position.nextPixel
  resetAssert _ _ _ := depthsAndPlan_reset (fun h => nomatch h) rfl rfl
  resetRelease _ _ _ := depthsAndPlan_reset (fun _ => rfl) rfl rfl
  select _ _ _ h := h.of_same rfl rfl rfl h.position
  transactionStart _ _ h := h.of_same rfl rfl rfl h.position
  transactionEnd s p t inbound h := by
    have hplans := endTransaction_plans p t inbound s
    have hstate := endTransaction_sessionState p t inbound s
    obtain ⟨_, _, hst⟩ := endTransaction_frame p t inbound s
    rw [hst] at hplans hstate ⊢
    exact h.of_kept rfl (fun _ hs => hs.of_same rfl hstate rfl) hplans h.position
  expiry s p _ hjoined h := by
    obtain ⟨q, _, _, _, _, _, hst, hq⟩ := expirePort_frame p s
    rw [hst]
    exact h.of_kept rfl (fun _ hs => hs.teardown (cause := .expiry) hjoined rfl rfl rfl) (.of_steady rfl hq)
      (h.position.of_eq rfl rfl rfl rfl)
  timeout s _ h := by
    rcases timeOutVote_frame s with hst | ⟨_, hst⟩ <;> rw [hst]
    · exact h
    · exact h.of_kept rfl (fun _ hs => hs.of_same rfl (fun _ => rfl) rfl) (.of_steady rfl (.inr rfl)) h.position
  request s p r a hr _ ha h := by
    have hst := ha.depthsAndPlan hr h
    rw [ha.endsNoSession.settle]
    exact hst.of_same rfl rfl rfl hst.position
  grants s h := by
    obtain ⟨_, _, _, hst, -⟩ := arbitrate_frame s
    rw [hst]
    exact h.of_same rfl rfl rfl (h.position.of_eq rfl rfl rfl rfl)
  lineZero s _ hdue h := by
    obtain ⟨_, _, _, _, hst⟩ := lineZeroFetch_frame s
    rw [hst]
    have hvblank := (Timing.inRange_iff.1 h.position.timing).2.2.2.1.1
    have hline : s.scan.timing.vblank - 1 < s.scan.timing.lines .blank := by
      show s.scan.timing.vblank - 1 < s.scan.timing.vblank
      omega
    exact h.of_same rfl rfl rfl ((positionInFrame_toLine h.position.timing hline).of_eq rfl rfl rfl rfl)
  frame s _ _ h := by
    have hplans := countFrame_plansKept s
    have hstate := countFrame_sessionState s
    obtain ⟨_, _, _, _, _, _, _, _, _, hst⟩ := startFrame_frame s
    rw [hst]
    have htiming : s.session.plan.timing.inRange = true := (Bool.and_eq_true_iff.1 h.ranges.1).2
    have hheight := (Timing.inRange_iff.1 htiming).2.1.1
    have hposition : PositionInFrame ({ s.scan with timing := s.session.plan.timing }.toLine .active 0) :=
      positionInFrame_toLine htiming (show 0 < s.session.plan.timing.height by omega)
    exact h.of_kept rfl (fun _ hs => hs.of_same rfl hstate rfl) hplans (hposition.of_eq rfl rfl rfl rfl)
  line s _ hdue h := by
    obtain ⟨_, _, _, _, _, _, _, _, hst⟩ := nextLine_frame s
    rw [hst]
    have hline : s.scan.lineNo + 1 < s.scan.timing.lines .active :=
      of_decide_eq_true (Bool.and_eq_true_iff.1 hdue).2
    exact h.of_same rfl rfl rfl ((positionInFrame_toLine h.position.timing hline).of_eq rfl rfl rfl rfl)
  blank s hr _ h := by
    obtain ⟨_, _, _, _, _, hst⟩ := settleAndArbitrate_frame (blankAct s)
    obtain ⟨_, _, _, _, _, _, hst'⟩ := blankAct_frame s
    have hreset : (startBlank s).resetN = s.resetN := by rw [startBlank, hst, hst']
    refine h.of_kept hreset (fun _ hs => startBlank_slotsPlaced hs (h.valid hr).1) (startBlank_plansKept s) ?_
    rw [startBlank, hst, hst']
    have hvblank := (Timing.inRange_iff.1 h.position.timing).2.2.2.1.1
    have hline : 0 < s.scan.timing.lines .blank := by
      show 0 < s.scan.timing.vblank
      omega
    exact (positionInFrame_toLine h.position.timing hline).of_eq rfl rfl rfl rfl
  tick s b _ h := by
    obtain ⟨⟨_, _, _, _, _, hst, -⟩, hend⟩ := tickBank_frame b s
    obtain ⟨_, _, _, harb, -⟩ := arbitrate_frame (tickBank b s).settle
    rw [Act.settleAndArbitrate, harb, Act.endsNoSession.settle hend, hst]
    exact h.of_same rfl rfl rfl (h.position.of_eq rfl rfl rfl rfl)
  completion s b a _ _ h := by
    obtain ⟨_, _, _, _, _, hst⟩ := completion_frame b a s
    rw [hst]
    exact h.of_same rfl rfl rfl (h.position.of_eq rfl rfl rfl rfl)

end Sys2Proof.Machine
end

section
set_option Elab.async false

open Sys2Proof Sys2Proof.Machine

/-- Settles O60: by what each event makes of the slots, the sessions, the plans and the position; at a blank start the
fit checks and the adoption's own keep the depths distinct and in band. -/
theorem everyStepKeepsDepthsAndPlan : Obligations.EveryStepKeepsDepthsAndPlan :=
  fun _ _ hslots htiming hstep =>
    depthsAndPlan_iff.2 (depthsAndPlan_keptByEvents.step (depthsAndPlan_iff.1 ⟨hslots, htiming⟩) hstep)

end

section
/-! SUPPORT. Which transfers a step ends: those whose requests it answers, and no other (R196). -/

set_option Elab.async false

namespace Sys2Proof.Machine

/-- The action answers a request of the port. -/
def Act.answers (a : Act) (p : PortId) : Prop := ∃ result payload, .respond p result payload ∈ a.out.map Prod.snd

/-- The same controllers, and a transfer in progress at the same ports. -/
structure SameJobs (s t : State) : Prop where
  ports : t.ports = s.ports
  job : ∀ p, (t.transfer.get p).job.isSome = (s.transfer.get p).job.isSome

/-- The controllers are untouched, a port that is answered has no transfer left, and any other has one as before. -/
structure KeepsJobs (s : State) (a : Act) : Prop where
  ports : a.st.ports = s.ports
  ended : ∀ p, a.answers p → (a.st.transfer.get p).job = none
  kept : ∀ p, ¬a.answers p → (a.st.transfer.get p).job.isSome = (s.transfer.get p).job.isSome

theorem SameJobs.refl (s : State) : SameJobs s s := ⟨rfl, fun _ => rfl⟩

theorem SameJobs.trans {s t u : State} (h : SameJobs s t) (h' : SameJobs t u) : SameJobs s u :=
  ⟨h'.ports.trans h.ports, fun p => (h'.job p).trans (h.job p)⟩

theorem SameJobs.of_eq {s t : State} (hports : t.ports = s.ports) (htransfer : t.transfer = s.transfer) :
    SameJobs s t := ⟨hports, fun p => by rw [htransfer]⟩

/-- One unit changed, which has a transfer in progress when it had one before. -/
theorem SameJobs.of_unit {s t : State} {p : PortId} (hports : t.ports = s.ports)
    (hother : ∀ q, q ≠ p → t.transfer.get q = s.transfer.get q)
    (hjob : (t.transfer.get p).job.isSome = (s.transfer.get p).job.isSome) : SameJobs s t := by
  refine ⟨hports, fun q => ?_⟩
  by_cases hq : q = p
  · subst hq
    exact hjob
  · rw [hother q hq]

theorem Act.answers_append {a : Act} {out : List (Origin × Msg)} (h : ∀ m ∈ out, ∃ p e, m.2 = .event p e) (st : State)
    (p : PortId) : Act.answers ⟨st, a.out ++ out⟩ p ↔ a.answers p := by
  have hnone : ∀ result payload, Msg.respond p result payload ∉ out.map Prod.snd := fun result payload hm => by
    obtain ⟨m, hm, hsnd⟩ := List.mem_map.1 hm
    obtain ⟨q, e, he⟩ := h m hm
    cases hsnd.symm.trans he
  simp only [answers, List.map_append, List.mem_append]
  exact exists_congr fun result => exists_congr fun payload => or_iff_left (hnone result payload)

theorem Act.answers_andThen {a : Act} {f : State → Act} {p : PortId} :
    (a.andThen f).answers p ↔ a.answers p ∨ (f a.st).answers p := by
  simp only [answers, Act.andThen_out, List.map_append, List.mem_append]
  constructor
  · rintro ⟨r, l, h | h⟩
    · exact .inl ⟨r, l, h⟩
    · exact .inr ⟨r, l, h⟩
  · rintro (⟨r, l, h⟩ | ⟨r, l, h⟩)
    · exact ⟨r, l, .inl h⟩
    · exact ⟨r, l, .inr h⟩

theorem Act.not_answers_quiet (s : State) (p : PortId) : ¬(Act.quiet s).answers p := by simp [answers]

theorem KeepsJobs.of_silent {s : State} {a : Act} (h : SameJobs s a.st) (hsilent : ∀ p, ¬a.answers p) :
    KeepsJobs s a := ⟨h.ports, fun p hp => absurd hp (hsilent p), fun p _ => h.job p⟩

theorem KeepsJobs.quiet {s u : State} (h : SameJobs s u) : KeepsJobs s (.quiet u) :=
  .of_silent h (Act.not_answers_quiet u)

/-- An answer to the port whose transfer ends. -/
theorem KeepsJobs.of_answer {s u : State} {p : PortId} {out : List (Origin × Msg)} {result : Result}
    {payload : List Byte} (hout : out = [(.response, .respond p result payload)]) (hports : u.ports = s.ports)
    (hjob : (u.transfer.get p).job = none)
    (hother : ∀ q, q ≠ p → (u.transfer.get q).job.isSome = (s.transfer.get q).job.isSome) : KeepsJobs s ⟨u, out⟩ := by
  subst hout
  refine ⟨hports, fun q hq => ?_, fun q hq => hother q ?_⟩
  · obtain ⟨r, l, h⟩ := hq
    have hqp : q = p := by simp_all
    rw [hqp]
    exact hjob
  · rintro rfl
    exact hq ⟨result, payload, by simp⟩

theorem KeepsJobs.andThen {s : State} {a : Act} {f : State → Act} (ha : KeepsJobs s a)
    (hf : KeepsJobs a.st (f a.st)) : KeepsJobs s (a.andThen f) := by
  refine ⟨hf.ports.trans ha.ports, fun p hp => ?_, fun p hp => ?_⟩
  · by_cases hanswers : (f a.st).answers p
    · exact hf.ended p hanswers
    · have hjob := hf.kept p hanswers
      rw [ha.ended p ((Act.answers_andThen.1 hp).resolve_right hanswers)] at hjob
      exact Option.isSome_eq_false_iff.1 hjob |> Option.isNone_iff_eq_none.1
  · obtain ⟨ha', hf'⟩ := not_or.1 (mt Act.answers_andThen.2 hp)
    exact (hf.kept p hf').trans (ha.kept p ha')

theorem KeepsJobs.forEach {α : Type} {s : State} {a : Act} {f : α → State → Act} (l : List α) (ha : KeepsJobs s a)
    (hf : ∀ x u, KeepsJobs u (f x u)) : KeepsJobs s (a.forEach l f) :=
  Act.forEach_keeps l ha fun x _ b hb => hb.andThen (hf x b.st)

theorem KeepsJobs.change {s : State} {a : Act} {f : State → State} (ha : KeepsJobs s a) (hf : ∀ u, SameJobs u (f u)) :
    KeepsJobs s (a.change f) := by
  have hchange : a.change f = a.andThen fun u => .quiet (f u) := by simp [Act.change, Act.andThen, Act.quiet]
  rw [hchange]
  exact ha.andThen (.quiet (hf a.st))

theorem KeepsJobs.sendAll {s : State} {a : Act} (ha : KeepsJobs s a) (o : Origin) (l : List PortId) (e : Event) :
    KeepsJobs s (a.sendAll o l e) := by
  have hanswers : ∀ p, (a.sendAll o l e).answers p ↔ a.answers p := fun p =>
    Act.answers_append (fun m hm => by
      obtain ⟨q, -, rfl⟩ := List.mem_map.1 hm
      exact ⟨q, e, rfl⟩) a.st p
  exact ⟨ha.ports, fun p hp => ha.ended p ((hanswers p).1 hp), fun p hp => ha.kept p (mt (hanswers p).2 hp)⟩

theorem KeepsJobs.of_sameJobs {s t : State} {a : Act} (h : SameJobs s t) (ha : KeepsJobs t a) : KeepsJobs s a :=
  ⟨ha.ports.trans h.ports, ha.ended, fun p hp => (ha.kept p hp).trans (h.job p)⟩

/-! ### Transfer units -/

theorem emptyBuffer_sameJobs (p : PortId) (s : State) : SameJobs s (emptyBuffer p s) := by
  refine .of_unit (p := p) ?_ (fun q hq => emptyBuffer_other s hq) ?_
  · obtain ⟨_, _, h, -⟩ := emptyBuffer_frame p s
    rw [h]
  · rw [emptyBuffer_unit]
    exact Option.isSome_map

theorem setTransfer_sameJobs {s : State} {p : PortId} {u : TransferUnit}
    (h : u.job.isSome = (s.transfer.get p).job.isSome) : SameJobs s (s.setTransfer p u) := by
  refine .of_unit (p := p) rfl (fun q hq => PerPort.get_set_other _ _ hq) ?_
  show ((s.transfer.set p u).get p).job.isSome = _
  rw [PerPort.get_set_same]
  exact h

theorem startReadAhead_sameJobs (p : PortId) (s : State) : SameJobs s (startReadAhead p s) := by
  unfold startReadAhead
  dsimp only
  split
  · exact .refl s
  · split
    · exact .refl s
    · split
      · exact .refl s
      · exact setTransfer_sameJobs (by rfl)

theorem transferTeardown_sameJobs (p : PortId) (s : State) : SameJobs s (transferTeardown p s) := by
  unfold transferTeardown
  exact (emptyBuffer_sameJobs p s).trans (setTransfer_sameJobs Option.isSome_map)

theorem transferJoin_sameJobs (p : PortId) (s : State) : SameJobs s (transferJoin p s) := by
  unfold transferJoin
  exact (emptyBuffer_sameJobs p s).trans (setTransfer_sameJobs (by rfl))

theorem setCursor_sameJobs (p : PortId) (c : Cursor) (s : State) : SameJobs s (setCursor p c s) := by
  unfold setCursor
  exact (emptyBuffer_sameJobs p s).trans (setTransfer_sameJobs (by rfl))

theorem noticeDamagedAt_sameJobs (h : Fin 32) (p : PortId) (s : State) : SameJobs s (noticeDamagedAt h p s) := by
  unfold noticeDamagedAt
  dsimp only
  split
  · exact (emptyBuffer_sameJobs p s).trans (setTransfer_sameJobs Option.isSome_map)
  · exact setTransfer_sameJobs Option.isSome_map

theorem foldl_sameJobs {α : Type} {f : State → α → State} (hf : ∀ s x, SameJobs s (f s x)) (l : List α) (s : State) :
    SameJobs s (l.foldl f s) := by
  induction l generalizing s with
  | nil => exact .refl s
  | cons x l ih => exact (hf s x).trans (ih (f s x))

theorem noticeDamaged_sameJobs (h : Fin 32) (s : State) : SameJobs s (noticeDamaged h s) :=
  foldl_sameJobs (fun u p => noticeDamagedAt_sameJobs h p u) allPorts s

theorem sendWriteNotice_sameJobs (a : Access) (s : State) : SameJobs s (sendWriteNotice a s) := by
  have hnotice : ∀ g lo hi, SameJobs s (noticeWrite g lo hi s) := fun g lo hi =>
    foldl_sameJobs (fun u p => by
      unfold takeWriteNotice
      split
      · exact emptyBuffer_sameJobs p u
      · exact .refl u) allPorts s
  unfold sendWriteNotice
  split
  · exact hnotice _ _ _
  · exact hnotice _ _ _
  · exact .refl s

theorem arbitrate_sameJobs (s : State) : SameJobs s (arbitrate s) := by
  refine ⟨arbitrate_ports s, fun p => ?_⟩
  obtain ⟨-, -, -, -, hjob⟩ := arbitrate_unit s p
  simpa using congrArg Option.isSome hjob

theorem dropJob_job (p : PortId) (s : State) : ((dropJob p s).transfer.get p).job = none := by
  simp [dropJob, State.setTransfer]

theorem dropJob_other {p q : PortId} (s : State) (hq : q ≠ p) : (dropJob p s).transfer.get q = s.transfer.get q :=
  PerPort.get_set_other _ _ hq

/-- A response sent once the transfer is dropped, whatever becomes of buffers and cursors then. -/
theorem keepsJobs_of_dropJob {s u : State} {p : PortId} {out : List (Origin × Msg)} {result : Result}
    {payload : List Byte} (hout : out = [(.response, .respond p result payload)]) (hu : SameJobs (dropJob p s) u) :
    KeepsJobs s ⟨u, out⟩ := by
  refine .of_answer hout hu.ports ?_ fun q hq => ?_
  · have hjob := hu.job p
    rw [dropJob_job] at hjob
    simpa using hjob
  · rw [hu.job q, dropJob_other s hq]

theorem finishRead_keepsJobs (p : PortId) (j : Job) (bytes : List Byte) (s : State) :
    KeepsJobs s (finishRead p j bytes s) := by
  refine keepsJobs_of_dropJob (finishRead_frame p j bytes s).2 ?_
  split
  · exact .refl _
  · exact ((emptyBuffer_sameJobs p _).trans (setTransfer_sameJobs (by rfl))).trans (startReadAhead_sameJobs p _)

theorem finishJob_keepsJobs (p : PortId) (s : State) : KeepsJobs s (finishJob p s) := by
  unfold finishJob
  split
  · exact .quiet (.refl s)
  · split
    · exact .quiet (.refl s)
    · split
      · exact finishRead_keepsJobs p _ _ s
      · exact .quiet (.refl s)
    · split
      · refine keepsJobs_of_dropJob rfl ?_
        split
        · exact .refl _
        · exact setTransfer_sameJobs (by rfl)
      · exact .quiet (.refl s)
    · split
      · exact keepsJobs_of_dropJob rfl (.refl _)
      · exact .quiet (.refl s)

theorem finishFetch_keepsJobs (p : PortId) (s : State) : KeepsJobs s (finishFetch p s) := by
  have hvalid : ∀ b, SameJobs s (s.setTransfer p { s.transfer.get p with buffer := b }) :=
    fun b => (setTransfer_sameJobs (by rfl))
  unfold finishFetch
  dsimp only
  split
  · split
    · split
      · split
        · exact .of_sameJobs (hvalid _) (finishRead_keepsJobs p _ _ _)
        · exact .quiet (hvalid _)
      · exact .quiet (hvalid _)
    · exact .quiet (.refl s)
  · exact .quiet (.refl s)

theorem transferCompleted_keepsJobs (p : PortId) (b : BankId) (bytes : List Byte) (s : State) :
    KeepsJobs s (transferCompleted p b bytes s) := by
  unfold transferCompleted
  dsimp only
  split
  · exact .of_sameJobs (setTransfer_sameJobs Option.isSome_map) (finishJob_keepsJobs p _)
  · exact .of_sameJobs (setTransfer_sameJobs (by rfl)) (finishFetch_keepsJobs p _)

theorem endRead_keepsJobs (p : PortId) (result : Result) (s : State) : KeepsJobs s (endRead p result s) := by
  have hgiveUp : SameJobs s (s.giveUp (.transfer p)) := ⟨rfl, fun _ => rfl⟩
  exact .of_sameJobs hgiveUp
    (keepsJobs_of_dropJob (u := dropJob p (s.giveUp (.transfer p))) (endRead_out p result s) (.refl _))

theorem loseExtent_keepsJobs (h : Fin 32) (r : Result) (p : PortId) (s : State) : KeepsJobs s (loseExtent h r p s) := by
  unfold loseExtent
  dsimp only
  generalize hu : (if (s.transfer.get p).cursor.map Cursor.handle = some h then _ else s : State) = u
  have hcursor : SameJobs s u := by
    rw [← hu]
    split
    · exact setTransfer_sameJobs (by rfl)
    · exact .refl s
  generalize hv : (if (s.transfer.get p).buffer.handle? = some h then emptyBuffer p u else u : State) = v
  have hbuffer : SameJobs s v := by
    rw [← hv]
    split
    · exact hcursor.trans (emptyBuffer_sameJobs p u)
    · exact hcursor
  split
  · split
    · exact .of_sameJobs hbuffer (endRead_keepsJobs p r v)
    · exact .quiet hbuffer
  · exact .quiet hbuffer

/-! ### The extent manager -/

theorem noticeFreed_keepsJobs (h : Fin 32) (s : State) : KeepsJobs s (noticeFreed h s) := by
  unfold noticeFreed
  exact KeepsJobs.forEach _ (.quiet (.refl s)) fun p u => loseExtent_keepsJobs h .noObject p u

theorem releaseExtent_keepsJobs (h : Fin 32) (s : State) : KeepsJobs s (releaseExtent h s) := by
  have hgiveUp : SameJobs s (allPorts.foldl (fun u p => giveUpClear u h p) s) :=
    foldl_sameJobs (fun u p => by
      unfold giveUpClear
      split
      · exact .of_eq (by rfl) (by rfl)
      · exact .refl u) allPorts s
  unfold releaseExtent
  split
  · exact .quiet (.refl s)
  · generalize allPorts.foldl (fun u p => giveUpClear u h p) s = u at hgiveUp
    have hfreed : SameJobs s ((leaveClearLists u h).setExtent h none) := hgiveUp.trans (.of_eq (by rfl) (by rfl))
    exact ((KeepsJobs.quiet hfreed).sendAll _ _ _).andThen (noticeFreed_keepsJobs h _)

theorem releaseIfUnreferenced_keepsJobs (h : Fin 32) (s : State) : KeepsJobs s (releaseIfUnreferenced h s) := by
  unfold releaseIfUnreferenced
  split
  · split
    · exact releaseExtent_keepsJobs h s
    · exact .quiet (.refl s)
  · exact .quiet (.refl s)

theorem setGrant_sameJobs (h : Fin 32) (p : PortId) (v : GrantState) (s : State) : SameJobs s (setGrant h p v s) := by
  obtain ⟨_, h⟩ := setGrant_frame h p v s
  rw [h]
  exact .of_eq (by rfl) (by rfl)

theorem revokeGrant_keepsJobs (h : Fin 32) (g p : PortId) (s : State) : KeepsJobs s (revokeGrant h g p s) := by
  unfold revokeGrant
  split
  · exact .quiet (.refl s)
  · split
    · split
      · exact ((KeepsJobs.quiet (setGrant_sameJobs h p .none s)).sendAll .extents [p] _).andThen
          (loseExtent_keepsJobs h .notGranted p _)
      · exact (KeepsJobs.quiet (setGrant_sameJobs h p .withdrawing s)).sendAll .extents [p] _
    · exact .quiet (.refl s)
    · exact .quiet (.refl s)

theorem orphanExtent_keepsJobs (p : PortId) (h : Fin 32) (s : State) : KeepsJobs s (orphanExtent p h s) := by
  unfold orphanExtent
  split
  · exact .quiet (.refl s)
  · split
    · have hset : ∀ e, KeepsJobs s (.quiet (s.setExtent h e)) := fun _ => .quiet (.of_eq (by rfl) (by rfl))
      exact (((hset _).forEach _ fun q u => revokeGrant_keepsJobs h p q u).change
        fun u => setGrant_sameJobs h p _ u).andThen (releaseIfUnreferenced_keepsJobs h _)
    · exact .quiet (.refl s)

theorem orphanExtents_keepsJobs (p : PortId) (s : State) : KeepsJobs s (orphanExtents p s) :=
  KeepsJobs.forEach _ (.quiet (.refl s)) fun h u => orphanExtent_keepsJobs p h u

theorem voterLeft_keepsJobs (p : PortId) (s : State) : KeepsJobs s (voterLeft p s) := by
  unfold voterLeft
  split
  · exact .quiet (.refl s)
  · split
    · exact (KeepsJobs.quiet (.of_eq (by rfl) (by rfl))).sendAll _ _ _
    · exact .quiet (.refl s)

theorem teardownStart_keepsJobs (p : PortId) (cause : TeardownCause) (s : State) :
    KeepsJobs s (teardownStart p cause s) := by
  have hown : SameJobs s (transferTeardown p (checkTeardown p (commitTeardown p (sessionTeardown p cause s)))) :=
    SameJobs.trans (.of_eq (by rfl) (by rfl)) (transferTeardown_sameJobs p _)
  exact (((KeepsJobs.quiet hown).sendAll _ _ _).andThen (voterLeft_keepsJobs p _)).andThen (orphanExtents_keepsJobs p _)

theorem lostRow_keepsJobs (g : Nat) (s : State) : KeepsJobs s (lostRow g s) := by
  unfold lostRow
  split
  · exact .quiet (.refl s)
  · split
    · exact .quiet (.refl s)
    · split
      · exact .quiet (.of_eq (by rfl) (by rfl))
      · unfold damageExtent
        dsimp only
        refine KeepsJobs.sendAll (.quiet ?_) _ _ _
        split
        · exact SameJobs.trans (.of_eq (by rfl) (by rfl)) (noticeDamaged_sameJobs _ _)
        · exact .of_eq (by rfl) (by rfl)

theorem clearCompleted_keepsJobs (p : PortId) (g : Nat) (s : State) : KeepsJobs s (clearCompleted p g s) := by
  unfold clearCompleted
  split
  · exact .quiet (.refl s)
  · split
    · exact .quiet (.refl s)
    · split
      · split
        · exact .quiet (.of_eq (by rfl) (by rfl))
        · exact (KeepsJobs.quiet (.of_eq (by rfl) (by rfl))).sendAll _ _ _
      · exact .quiet (.refl s)

theorem completeAccess_keepsJobs (b : BankId) (a : Access) (s : State) : KeepsJobs s (completeAccess b a s) := by
  unfold completeAccess
  dsimp only
  generalize hu : State.setRefresh _ b _ = u
  have hbank : SameJobs s u := by
    rw [← hu]
    exact .of_eq rfl rfl
  refine .of_sameJobs (hbank.trans (sendWriteNotice_sameJobs a u)) ?_
  unfold handOver
  split
  · split
    · exact .quiet (.refl _)
    · exact .quiet (.of_eq (by rfl) (by rfl))
    · exact transferCompleted_keepsJobs _ b _ _
    · exact clearCompleted_keepsJobs _ a.row _
  · exact .quiet (.refl _)

theorem tickBank_keepsJobs (b : BankId) (s : State) : KeepsJobs s (tickBank b s) := by
  unfold tickBank
  dsimp only
  split
  · generalize hu : scrambleRow _ _ = u
    exact .of_sameJobs (.of_eq (by rw [← hu]; rfl) (by rw [← hu]; rfl)) (lostRow_keepsJobs _ u)
  · exact .quiet (.of_eq (by rfl) (by rfl))

/-! ### Lines and the blank start -/

theorem underrunSlot_keepsJobs (line : Nat) (l : Fin 16) (s : State) : KeepsJobs s (underrunSlot line l s) := by
  have hst : SameJobs s (underrunSlot line l s).st := by
    obtain ⟨⟨_, _, h⟩, -⟩ := underrunSlot_frame line l s
    rw [h]
    exact .of_eq (by rfl) (by rfl)
  unfold underrunSlot at hst ⊢
  dsimp only at hst ⊢
  split
  · rename_i htold
    rw [if_pos htold] at hst
    exact .quiet hst
  · rename_i htold
    rw [if_neg htold] at hst
    exact (KeepsJobs.quiet hst).sendAll _ _ _

theorem fetchNextLine_sameJobs (line : Nat) (s : State) : SameJobs s (fetchNextLine line s) := by
  obtain ⟨_, _, h⟩ := fetchNextLine_frame line s
  rw [h]
  exact .of_eq (by rfl) (by rfl)

theorem runLine_keepsJobs (line : Nat) (s : State) : KeepsJobs s (runLine line s) := by
  have hunderruns : KeepsJobs s ((Act.quiet s).forEach (underrunSlots s) fun l => underrunSlot line l) :=
    KeepsJobs.forEach _ (.quiet (.refl s)) fun l u => underrunSlot_keepsJobs line l u
  exact ((hunderruns.change fun _ => .of_eq (by rfl) (by rfl)).change fun _ => .of_eq (by rfl) (by rfl)).change
    fun u => fetchNextLine_sameJobs line u

theorem endWithdrawal_keepsJobs (old : Extent) (h : Fin 32) (p : PortId) (s : State) :
    KeepsJobs s (endWithdrawal old h p s) := by
  unfold endWithdrawal
  split
  · exact .quiet (.refl s)
  · split
    · refine KeepsJobs.andThen (.of_silent (setGrant_sameJobs h p .none s) fun q => ?_)
        (loseExtent_keepsJobs h .notGranted p _)
      unfold withdrawalEvents Act.answers
      split
      · simp
      · split <;> simp
    · exact .quiet (.refl s)

theorem clearGrant_keepsJobs (h : Fin 32) (p : PortId) (s : State) : KeepsJobs s (clearGrant h p s) := by
  unfold clearGrant
  split
  · exact .quiet (.refl s)
  · split
    · exact .quiet (.refl s)
    · exact .of_sameJobs (setGrant_sameJobs h p .none s) (loseExtent_keepsJobs h .notGranted p _)

theorem extentBlank_keepsJobs (old : State) (h : Fin 32) (s : State) : KeepsJobs s (extentBlank old h s) := by
  unfold extentBlank
  split
  · exact .quiet (.refl s)
  · exact ((KeepsJobs.forEach _ (.quiet (.refl s)) fun p u => endWithdrawal_keepsJobs _ h p u).forEach _
      fun p u => clearGrant_keepsJobs h p u).andThen (releaseIfUnreferenced_keepsJobs h _)

theorem extentsBlank_keepsJobs (old s : State) : KeepsJobs s (extentsBlank old s) :=
  KeepsJobs.forEach _ (.quiet (.of_eq (by rfl) (by rfl))) fun h u => extentBlank_keepsJobs old h u

theorem commitBlank_keepsJobs (s : State) : KeepsJobs s (commitBlank s) := by
  refine .of_silent (.of_eq (by rfl) (by rfl)) ?_
  rintro p ⟨result, payload, hp⟩
  obtain ⟨m, hm, hsnd⟩ := List.mem_map.1 hp
  obtain ⟨q, -, hq⟩ := List.mem_flatMap.1 hm
  unfold batchEvent at hq
  split at hq
  · cases hq
  · rw [List.mem_singleton.1 hq] at hsnd
    cases hsnd
  · rw [List.mem_singleton.1 hq] at hsnd
    cases hsnd

/-- A window's events go to ports, and are events. -/
theorem windowEvents_events {s : State} {n : Fin 8} {w : Window} {m : Origin × Msg} (h : m ∈ windowEvents s n w) :
    ∃ p e, m.2 = .event p e := by
  unfold windowEvents at h
  rcases List.mem_append.1 h with h | h
  · split at h
    · rw [List.mem_singleton.1 h]
      exact ⟨_, _, rfl⟩
    · cases h
  · split at h
    · obtain ⟨p, -, rfl⟩ := List.mem_map.1 h
      exact ⟨_, _, rfl⟩
    · cases h

theorem windowBlank_keepsJobs (n : Fin 8) (s : State) : KeepsJobs s (windowBlank n s) := by
  unfold windowBlank
  split
  · exact .quiet (.refl s)
  · split
    · refine .of_silent (.of_eq (by rfl) (by rfl)) ?_
      rintro p ⟨result, payload, hp⟩
      obtain ⟨m, hm, hsnd⟩ := List.mem_map.1 hp
      obtain ⟨q, e, he⟩ := windowEvents_events hm
      cases hsnd.symm.trans he
    · exact .quiet (.refl s)

theorem adoptionBlank_keepsJobs (s : State) : KeepsJobs s (adoptionBlank s) := by
  unfold adoptionBlank
  split
  · split
    · exact (KeepsJobs.quiet (.of_eq (by rfl) (by rfl))).sendAll _ _ _
    · exact (KeepsJobs.quiet (.of_eq (by rfl) (by rfl))).sendAll _ _ _
  · exact .quiet (.refl s)

theorem blankAct_keepsJobs (s : State) : KeepsJobs s (blankAct s) := by
  have hcommit : KeepsJobs s (commitBlank { s with scan := s.scan.toLine .blank 0 }) :=
    .of_sameJobs (.of_eq (by rfl) (by rfl)) (commitBlank_keepsJobs _)
  have hsessions : ∀ u, KeepsJobs u (sessionsBlank s u) := fun u =>
    .of_silent (.refl u) fun p => by simp [Act.answers, sessionsBlank]
  exact (((((hcommit.andThen (extentsBlank_keepsJobs s _)).change fun _ => .of_eq (by rfl) (by rfl)).andThen
    (KeepsJobs.forEach _ (.quiet (.refl _)) fun n u => windowBlank_keepsJobs n u)).andThen
    (hsessions _)).andThen (adoptionBlank_keepsJobs _))

end Sys2Proof.Machine
end

section
/-! PROOF. The bounds of the queues, and executing requests with their transfers, at every step (R176, R195, R196,
R199). -/

set_option Elab.async false

namespace Sys2Proof.Machine

/-! ### One controller -/

/-- What the queues of a controller keep: the credit of 4, at most 12 events, and an executing request, whose response
alone can be one to discard, in its queue. -/
structure PortBounded (c : PortController) : Prop where
  credit : c.requests.length + c.outbound.countP Frame.isResponse ≤ 4
  events : c.outbound.countP Frame.isEvent ≤ 12
  queued : c.executing = true → c.requests ≠ []
  discard : c.discard = true → c.executing = true

theorem coalesce_kinds {e : Event} {l q : List Frame} (h : coalesce e l = some q) :
    q.map Frame.isEvent = l.map Frame.isEvent ∧ q.map Frame.isResponse = l.map Frame.isResponse := by
  induction l generalizing q with
  | nil => cases h
  | cons f rest ih =>
    unfold coalesce at h
    split at h
    · rename_i rest' hrest
      obtain ⟨hevents, hresponses⟩ := ih hrest
      obtain rfl := Option.some.inj h
      exact ⟨by rw [List.map_cons, hevents]; rfl, by rw [List.map_cons, hresponses]; rfl⟩
    · split at h
      · split at h
        · obtain rfl := Option.some.inj h
          exact ⟨rfl, rfl⟩
        · cases h
      · cases h

theorem countP_of_map {q l : List Frame} {f : Frame → Bool} (h : q.map f = l.map f) : q.countP f = l.countP f := by
  have hcount := congrArg (List.countP id) h
  rwa [List.countP_map, List.countP_map] at hcount

/-- An event leaves the requests of a controller, its responses and what executes, and at most 12 events. -/
theorem takeEvent_keeps (c : PortController) (e : Event) :
    (c.takeEvent e).requests = c.requests ∧ (c.takeEvent e).executing = c.executing ∧
      (c.takeEvent e).discard = c.discard ∧
      (c.takeEvent e).outbound.countP Frame.isResponse = c.outbound.countP Frame.isResponse ∧
      (c.outbound.countP Frame.isEvent ≤ 12 → (c.takeEvent e).outbound.countP Frame.isEvent ≤ 12) := by
  unfold PortController.takeEvent
  split
  · rename_i hroom
    refine ⟨rfl, rfl, rfl, by simp [List.countP_append, Frame.isResponse], fun _ => ?_⟩
    rw [List.countP_append]
    exact hroom
  · split
    · split
      · rename_i q hq
        obtain ⟨hevents, hresponses⟩ := coalesce_kinds hq
        have hsplit : c.outbound = c.outbound.take 1 ++ c.outbound.tail := by
          rw [← List.drop_one, List.take_append_drop]
        have hcount : ∀ f : Frame → Bool, q.map f = c.outbound.tail.map f →
            (c.outbound.take 1 ++ q).countP f = c.outbound.countP f := fun f hf => by
          rw [List.countP_append, countP_of_map hf, ← List.countP_append, ← hsplit]
        exact ⟨rfl, rfl, rfl, hcount _ hresponses, fun h => (hcount _ hevents).le.trans h⟩
      · exact ⟨rfl, rfl, rfl, rfl, id⟩
    · split
      · rename_i q hq
        obtain ⟨hevents, hresponses⟩ := coalesce_kinds hq
        exact ⟨rfl, rfl, rfl, countP_of_map hresponses, fun h => (countP_of_map hevents).le.trans h⟩
      · exact ⟨rfl, rfl, rfl, rfl, id⟩

theorem PortBounded.takeEvent {c : PortController} (h : PortBounded c) (e : Event) : PortBounded (c.takeEvent e) := by
  obtain ⟨hrequests, hexecuting, hdiscard, hresponses, hevents⟩ := takeEvent_keeps c e
  exact ⟨by rw [hrequests, hresponses]; exact h.credit, hevents h.events, by rw [hrequests, hexecuting]; exact h.queued,
    by rw [hdiscard, hexecuting]; exact h.discard⟩

/-- A response takes its request off the queue; nothing executes then. -/
theorem PortBounded.takeResponse {c : PortController} (h : PortBounded c) (result : Result) (payload : List Byte) :
    PortBounded (c.takeResponse result payload) ∧ (c.takeResponse result payload).executing = false := by
  unfold PortController.takeResponse
  split
  · rename_i hempty
    exact ⟨h, Bool.eq_false_iff.2 fun hexecuting => h.queued hexecuting hempty⟩
  · rename_i r rest hrequests
    have hcredit := h.credit
    rw [hrequests, List.length_cons] at hcredit
    refine ⟨⟨?_, ?_, fun hexecuting => (nomatch hexecuting), fun hdiscard => (nomatch hdiscard)⟩, rfl⟩
    · dsimp only
      split
      · omega
      · rw [List.countP_append]
        show rest.length + (c.outbound.countP Frame.isResponse + 1) ≤ 4
        omega
    · dsimp only
      split
      · exact h.events
      · rw [List.countP_append]
        exact h.events

/-- Fewer frames outbound. -/
theorem PortBounded.of_sublist {c c' : PortController} (h : PortBounded c) (hrequests : c'.requests = c.requests)
    (hexecuting : c'.executing = c.executing) (hdiscard : c'.discard = c.discard)
    (houtbound : c'.outbound.Sublist c.outbound) : PortBounded c' where
  credit := by
    rw [hrequests]
    exact (Nat.add_le_add_left (houtbound.countP_le) _).trans h.credit
  events := houtbound.countP_le.trans h.events
  queued := by rw [hexecuting, hrequests]; exact h.queued
  discard := by rw [hexecuting, hdiscard]; exact h.discard

theorem PortBounded.deliverFrame {c : PortController} (h : PortBounded c) (t : Transaction) :
    PortBounded (deliverFrame t c) ∧ (Machine.deliverFrame t c).executing = c.executing := by
  unfold Machine.deliverFrame
  split
  · exact ⟨h.of_sublist rfl rfl rfl (.refl _), rfl⟩
  · exact ⟨h.of_sublist rfl rfl rfl (List.tail_sublist _), rfl⟩
  · exact ⟨h, rfl⟩

/-- A request accepted within the credit. -/
theorem PortBounded.accept {c : PortController} (h : PortBounded c) (hcredit : Machine.credit c ≠ 0) (r : Request) :
    PortBounded { c with requests := c.requests ++ [r] } := by
  refine ⟨?_, h.events, fun _ => by simp, h.discard⟩
  simp only [Machine.credit] at hcredit
  simp only [List.length_append, List.length_singleton]
  omega

theorem PortBounded.expire {c : PortController} (h : PortBounded c) :
    PortBounded c.expire ∧ c.expire.executing = c.executing := by
  refine ⟨⟨?_, Nat.le_add_left 1 11, fun hexecuting => ?_, id⟩, rfl⟩
  · show (if c.executing then c.requests.take 1 else []).length + 0 ≤ 4
    split
    · rw [List.length_take]
      omega
    · exact Nat.zero_le 4
  · show (if c.executing then c.requests.take 1 else []) ≠ []
    rw [if_pos (show c.executing = true from hexecuting)]
    have hqueued := h.queued hexecuting
    cases hrequests : c.requests with
    | nil => exact absurd hrequests hqueued
    | cons r rest => simp

/-! ### Every port -/

/-- The queues are bounded, and a transfer is in progress exactly while its request executes. -/
structure QueuesOk (s : State) : Prop where
  bounded : ∀ p, PortBounded (s.ports.get p)
  job : ∀ p, (s.ports.get p).executing = (s.transfer.get p).job.isSome

theorem queuesOk_iff {s : State} : queueInv s = true ∧ jobInv s = true ↔ QueuesOk s := by
  simp only [queueInv, jobInv, List.all_eq_true, mem_allPorts, forall_const, Bool.and_eq_true, decide_eq_true_eq,
    Bool.or_eq_true, Bool.not_eq_true']
  constructor
  · rintro ⟨hqueue, hjob⟩
    refine ⟨fun p => ⟨(hqueue p).1, (hqueue p).2, fun h => ?_, fun h => ?_⟩, fun p => (hjob p).1.1⟩
    · exact (hjob p).1.2.resolve_left (by simp [h])
    · exact (hjob p).2.resolve_left (by simp [h])
  · rintro ⟨hbounded, hjob⟩
    refine ⟨fun p => ⟨(hbounded p).credit, (hbounded p).events⟩, fun p => ⟨⟨hjob p, ?_⟩, ?_⟩⟩
    · rw [← Bool.not_eq_true, ← imp_iff_not_or]
      exact (hbounded p).queued
    · rw [← Bool.not_eq_true, ← imp_iff_not_or]
      exact (hbounded p).discard

theorem QueuesOk.of_sameJobs {s t : State} (h : QueuesOk s) (hst : SameJobs s t) : QueuesOk t :=
  ⟨fun p => hst.ports ▸ h.bounded p, fun p => by rw [hst.ports, hst.job]; exact h.job p⟩

/-- One controller replaced by a bounded one that executes as before. -/
theorem QueuesOk.setPort {s : State} {p : PortId} {c : PortController} (h : QueuesOk s) (hc : PortBounded c)
    (hexecuting : c.executing = (s.ports.get p).executing) : QueuesOk (s.setPort p c) := by
  refine ⟨fun q => ?_, fun q => ?_⟩
  · by_cases hq : q = p
    · subst hq
      rwa [State.setPort, PerPort.get_set_same]
    · rw [State.setPort, PerPort.get_set_other _ _ hq]
      exact h.bounded q
  · by_cases hq : q = p
    · subst hq
      rw [State.setPort, PerPort.get_set_same, hexecuting]
      exact h.job q
    · rw [State.setPort, PerPort.get_set_other _ _ hq]
      exact h.job q

/-- One message delivered: the queues stay bounded, and only a response changes what executes, to nothing. -/
theorem deliver_bounded {s : State} (h : ∀ p, PortBounded (s.ports.get p)) (m : Msg) (p : PortId) :
    PortBounded ((s.deliver m).ports.get p) ∧
      ((∃ r l, m = .respond p r l) → ((s.deliver m).ports.get p).executing = false) ∧
      ((¬∃ r l, m = .respond p r l) → ((s.deliver m).ports.get p).executing = (s.ports.get p).executing) := by
  cases m with
  | respond q result payload =>
    by_cases hp : p = q
    · subst hp
      obtain ⟨hbounded, hexecuting⟩ := (h p).takeResponse result payload
      simpa [State.deliver, State.setPort] using ⟨hbounded, hexecuting⟩
    · have hq : q ≠ p := fun hq => hp hq.symm
      simpa [State.deliver, State.setPort, PerPort.get_set_other _ _ hp, hq] using h p
  | event q e =>
    unfold State.deliver
    dsimp only
    split
    · by_cases hp : p = q
      · subst hp
        simpa [State.setPort] using ⟨(h p).takeEvent e, (takeEvent_keeps _ e).2.1⟩
      · simpa [State.setPort, PerPort.get_set_other _ _ hp] using h p
    · simpa using h p
  | sessionEnd q => simpa [State.deliver, State.setSession] using h p

theorem deliverAll_bounded (l : List Msg) {s : State} (h : ∀ p, PortBounded (s.ports.get p)) :
    (∀ p, PortBounded ((l.foldl State.deliver s).ports.get p)) ∧ ∀ p,
      ((∃ r b, .respond p r b ∈ l) → ((l.foldl State.deliver s).ports.get p).executing = false) ∧
      ((¬∃ r b, .respond p r b ∈ l) →
        ((l.foldl State.deliver s).ports.get p).executing = (s.ports.get p).executing) := by
  induction l generalizing s with
  | nil => exact ⟨h, fun p => ⟨by simp, fun _ => rfl⟩⟩
  | cons m l ih =>
    obtain ⟨hbounded, hexecuting⟩ := ih fun p => (deliver_bounded h m p).1
    refine ⟨hbounded, fun p => ⟨?_, fun hnone => ?_⟩⟩
    · rintro ⟨r, b, hm⟩
      by_cases hl : ∃ r b, .respond p r b ∈ l
      · exact (hexecuting p).1 hl
      · refine ((hexecuting p).2 hl).trans ?_
        have hm : m = .respond p r b := ((List.mem_cons.1 hm).resolve_right fun hmem => hl ⟨r, b, hmem⟩).symm
        exact (deliver_bounded h m p).2.1 ⟨r, b, hm⟩
    · refine ((hexecuting p).2 fun ⟨r, b, hl⟩ => hnone ⟨r, b, List.mem_cons_of_mem _ hl⟩).trans ?_
      exact (deliver_bounded h m p).2.2 fun ⟨r, b, hm⟩ => hnone ⟨r, b, hm ▸ List.mem_cons_self⟩

/-- What ends the transfers of the requests it answers keeps the queues once its messages have arrived. -/
theorem QueuesOk.settle {s : State} {a : Act} (h : QueuesOk s) (ha : KeepsJobs s a) : QueuesOk a.settle := by
  obtain ⟨hbounded, hexecuting⟩ := deliverAll_bounded (arrange (a.st.arrivals.headD []) a.out)
    (s := { a.st with arrivals := a.st.arrivals.tail }) fun p => ha.ports ▸ h.bounded p
  simp only [mem_arrange] at hexecuting
  refine ⟨hbounded, fun p => ?_⟩
  rw [settle_transfer]
  by_cases hp : a.answers p
  · rw [ha.ended p hp]
    exact (hexecuting p).1 hp
  · rw [ha.kept p hp, ← h.job p, ← ha.ports]
    exact (hexecuting p).2 hp

theorem QueuesOk.settleAndArbitrate {s : State} {a : Act} (h : QueuesOk s) (ha : KeepsJobs s a) :
    QueuesOk a.settleAndArbitrate := (h.settle ha).of_sameJobs (arbitrate_sameJobs _)

/-! ### Requests -/

theorem RequestChange.sameJobs {moves : Prop} {p : PortId} {s u : State} (hchange : RequestChange moves p s u) : SameJobs s u := by
  cases hchange with
  | join lease view => exact SameJobs.trans (.of_eq (by rfl) (by rfl)) (transferJoin_sameJobs p _)
  | move l d x y before after =>
    obtain ⟨_, hu⟩ := noticeMove_frame before after (s.setSlot l (.held .owned p { d with x, y }))
    rw [hu]
    exact .of_eq rfl rfl
  | grant h q => exact setGrant_sameJobs h q .granted s
  | seek c => exact setCursor_sameJobs p c s
  | _ => exact .of_eq rfl rfl

theorem answer_keepsJobs {p : PortId} {s u : State} (result : Result) (payload : List Byte) (h : SameJobs s u)
    (hjob : (s.transfer.get p).job = none) : KeepsJobs s (answer p result payload u) :=
  .of_answer rfl h.ports (by simpa [hjob] using h.job p) fun q _ => h.job q

/-- A request's execution, once its messages have arrived. -/
theorem Serves.queuesOk {moves : Prop} {p : PortId} {s : State} {a : Act} {r : Request} (hserves : Serves moves p s a)
    (hnext : (s.ports.get p).nextRequest = some r) (h : QueuesOk s) : QueuesOk a.settle := by
  unfold PortController.nextRequest at hnext
  split at hnext
  · cases hnext
  · rename_i hidle
    have hjob : (s.transfer.get p).job = none := by
      have := h.job p
      rw [Bool.eq_false_iff.2 hidle] at this
      simpa using this.symm
    cases hserves with
    | change u result payload o l e hchange =>
      exact h.settle ((answer_keepsJobs result payload hchange.sameJobs hjob).sendAll o l e)
    | leave => exact h.settle ((answer_keepsJobs .ok [] (.refl s) hjob).andThen (teardownStart_keepsJobs p .leave s))
    | free k e => exact h.settle ((answer_keepsJobs .ok [] (.refl s) hjob).andThen (releaseExtent_keepsJobs k s))
    | revoke k q => exact h.settle ((answer_keepsJobs .ok [] (.refl s) hjob).andThen (revokeGrant_keepsJobs k p q s))
    | serve j bytes => exact h.settle (finishRead_keepsJobs p j bytes s)
    | begin j u hu =>
      have hu : SameJobs s u := by
        rcases hu with rfl | rfl
        · exact .refl _
        · exact emptyBuffer_sameJobs p s
      have hqueue := h.of_sameJobs hu
      have hrequests : (u.ports.get p).requests ≠ [] := by
        rw [hu.ports]
        exact fun hempty => by simp [hempty] at hnext
      rw [settle_quiet]
      refine ⟨fun q => ?_, fun q => ?_⟩
      · by_cases hq : q = p
        · subst hq
          simp only [startJob, State.setTransfer, State.setPort, PerPort.get_set_same]
          have hbounded := hqueue.bounded q
          exact ⟨hbounded.credit, hbounded.events, fun _ => hrequests, fun _ => rfl⟩
        · simp only [startJob, State.setTransfer, State.setPort, PerPort.get_set_other _ _ hq]
          exact hqueue.bounded q
      · by_cases hq : q = p
        · subst hq
          simp only [startJob, State.setTransfer, State.setPort, PerPort.get_set_same]
          rfl
        · simp only [startJob, State.setTransfer, State.setPort, PerPort.get_set_other _ _ hq]
          exact hqueue.job q

/-! ### Transactions -/

theorem QueuesOk.takeInbound {s : State} (h : QueuesOk s) (p : PortId) (bytes : List Byte) :
    QueuesOk (takeInbound p bytes s) := by
  unfold Machine.takeInbound
  split
  · exact h
  · exact h
  · exact h.setPort ((h.bounded p).of_sublist rfl rfl rfl (.refl _)) rfl
  · unfold acceptRequest
    dsimp only
    split
    · exact h.setPort ((h.bounded p).of_sublist rfl rfl rfl (.refl _)) rfl
    · rename_i r _ hcredit
      have haccept := h.setPort ((h.bounded p).accept hcredit r) rfl
      unfold reloadLease
      dsimp only
      split
      · exact haccept.of_sameJobs (.of_eq rfl rfl)
      · exact haccept

theorem QueuesOk.endTransaction {s : State} (h : QueuesOk s) (p : PortId) (t : Transaction) (bytes : List Byte) :
    QueuesOk (endTransaction p t bytes s) := by
  have hidle : PortBounded { s.ports.get p with selHigh := true, transaction := none } :=
    (h.bounded p).of_sublist rfl rfl rfl (.refl _)
  unfold Machine.endTransaction
  dsimp only
  split
  · obtain ⟨hdelivered, hexecuting⟩ := hidle.deliverFrame t
    exact (h.setPort hdelivered hexecuting).takeInbound p bytes
  · exact (h.setPort hidle rfl).takeInbound p bytes

theorem portBounded_reset (b : Bool) : PortBounded (resetPort b) :=
  ⟨Nat.zero_le 4, Nat.zero_le 12, fun h => (nomatch h), fun h => (nomatch h)⟩

theorem queuesOk_reset {s : State} {v : PortId → Bool} (hports : ∀ p, s.ports.get p = resetPort (v p))
    (htransfer : s.transfer = State.reset.transfer) : QueuesOk s := by
  refine ⟨fun p => ?_, fun p => ?_⟩
  · rw [hports]
    exact portBounded_reset _
  · rw [hports, htransfer]
    cases p <;> rfl

theorem queuesOk_keptByEvents : KeptByEvents QueuesOk where
  pending _ _ h := h.of_sameJobs (.of_eq rfl rfl)
  pixel _ _ h := h.of_sameJobs (.of_eq rfl rfl)
  resetAssert s _ _ := queuesOk_reset (fun p => PerPort.get_tab _ p) rfl
  resetRelease s _ _ := queuesOk_reset (fun p => PerPort.get_tab _ p) rfl
  select s p _ h := h.setPort ((h.bounded p).of_sublist rfl rfl rfl (.refl _)) rfl
  transactionStart s p h := h.setPort ((h.bounded p).of_sublist rfl rfl rfl (.refl _)) rfl
  transactionEnd s p t inbound h := h.endTransaction p t inbound
  expiry s p _ _ h := by
    obtain ⟨hbounded, hexecuting⟩ := (h.bounded p).expire
    exact (h.setPort hbounded hexecuting).settleAndArbitrate (teardownStart_keepsJobs p .expiry _)
  timeout s _ h := by
    unfold timeOutVote
    split
    · exact h.settle ((KeepsJobs.quiet (.of_eq (by rfl) (by rfl))).sendAll _ _ _)
    · exact h
  request s p r a _ hnext ha h := ha.queuesOk hnext h
  grants s h := h.of_sameJobs (arbitrate_sameJobs s)
  lineZero s _ _ h := h.of_sameJobs (SameJobs.trans (.of_eq (by rfl) (by rfl)) (arbitrate_sameJobs _))
  frame s _ _ h := by
    rw [startFrame_eq]
    exact h.settleAndArbitrate (.change (.of_sameJobs (.of_eq (by rfl) (by rfl)) (runLine_keepsJobs 0 _))
      fun _ => .of_eq (by rfl) (by rfl))
  line s _ _ h := by
    unfold nextLine
    exact h.settleAndArbitrate (.of_sameJobs (.of_eq (by rfl) (by rfl)) (runLine_keepsJobs _ _))
  blank s _ _ h := h.settleAndArbitrate (blankAct_keepsJobs s)
  tick s b _ h := h.settleAndArbitrate (tickBank_keepsJobs b s)
  completion s b a _ _ h := h.settleAndArbitrate (completeAccess_keepsJobs b a s)

end Sys2Proof.Machine
end

section
set_option Elab.async false

open Sys2Proof Sys2Proof.Machine

/-- Settles O55: a step leaves the transfers but those it answers, and an arriving message keeps the bounds of its
controller. -/
theorem everyStepKeepsTheQueues : Obligations.EveryStepKeepsTheQueues :=
  fun _ _ hqueue hjob hstep => queuesOk_iff.2 (queuesOk_keptByEvents.step (queuesOk_iff.1 ⟨hqueue, hjob⟩) hstep)

end

section
/-! PROOF. What only some commands change, and that every command answers a next state. -/

set_option Elab.async false

namespace Sys2Proof.Machine

/-- The held slots keep their owners and live descriptors. -/
def HeldKept (s t : State) : Prop := ∀ l state p d, s.slot l = .held state p d → ∃ state', t.slot l = .held state' p d

theorem HeldKept.of_slots {s t : State} (h : t.commit.slots = s.commit.slots) : HeldKept s t := by
  intro l state p d hl
  refine ⟨state, ?_⟩
  rwa [State.slot, h]

theorem HeldKept.trans {s t u : State} (h : HeldKept s t) (h' : HeldKept t u) : HeldKept s u := by
  intro l state p d hl
  obtain ⟨state', hl'⟩ := h l state p d hl
  exact h' l state' p d hl'

theorem commitTeardown_held {s t : State} {p : PortId} (h : t.commit.slots = (commitTeardown p s).commit.slots) :
    HeldKept s t := by
  intro l state q d hl
  have hslot : t.slot l = (s.slot l).retireFor p := by
    rw [State.slot, h]
    exact tabulate_get _ l
  rw [hslot, hl]
  unfold Slot.retireFor
  split
  · rename_i hheld
    cases hheld
    split <;> exact ⟨_, rfl⟩
  · exact ⟨state, rfl⟩

/-- The live entries of every palette block stay. -/
def LiveKept (s t : State) : Prop := ∀ b, (t.block b).live = (s.block b).live

theorem LiveKept.of_palette {s t : State} (h : t.palette = s.palette) : LiveKept s t := fun b => by
  rw [State.block, State.block, h]

/-- No request but Move Now changes a live descriptor. -/
theorem RequestChange.held {moves : Prop} {p : PortId} {s u : State} (hchange : RequestChange moves p s u)
    (hmoves : ¬moves) : HeldKept s u := by
  cases hchange with
  | join lease view =>
    obtain ⟨_, _, hu⟩ := transferJoin_frame p
      (s.setSession p { state := .joined, lease, counter := lease, view, cause := .none })
    exact .of_slots (by rw [hu]; rfl)
  | claimLayer l z hjoined hfree =>
    intro m state q d hm
    have hml : m ≠ l := by
      rintro rfl
      rw [hfree] at hm
      cases hm
    exact ⟨state, by rwa [State.setSlot_slot_other _ _ hml]⟩
  | move l d x y before after hslot h => exact absurd h hmoves
  | grant k q =>
    obtain ⟨_, hu⟩ := setGrant_frame k q .granted s
    exact .of_slots (by rw [hu])
  | seek c =>
    obtain ⟨_, _, hu⟩ := setCursor_frame p c s
    exact .of_slots (by rw [hu])
  | _ => exact .of_slots rfl

/-- No request changes a live palette entry. -/
theorem RequestChange.live {moves : Prop} {p : PortId} {s u : State} (hchange : RequestChange moves p s u) :
    LiveKept s u := by
  cases hchange with
  | join lease view =>
    obtain ⟨_, _, hu⟩ := transferJoin_frame p
      (s.setSession p { state := .joined, lease, counter := lease, view, cause := .none })
    exact .of_palette (by rw [hu]; rfl)
  | move l d x y before after =>
    obtain ⟨_, hu⟩ := noticeMove_frame before after (s.setSlot l (.held .owned p { d with x, y }))
    exact .of_palette (by rw [hu]; rfl)
  | grant k q =>
    obtain ⟨_, hu⟩ := setGrant_frame k q .granted s
    exact .of_palette (by rw [hu])
  | seek c =>
    obtain ⟨_, _, hu⟩ := setCursor_frame p c s
    exact .of_palette (by rw [hu])
  | claimPalette first count =>
    intro b
    rw [claimRun_block]
    split <;> rfl
  | releasePalette first count =>
    intro b
    rw [releaseRun_block]
    split <;> rfl
  | paletteWrite b shadow =>
    intro c
    by_cases hc : c = b
    · subst hc
      rw [State.setBlock_block_same]
    · rw [State.setBlock_block_other _ _ hc]
  | _ => exact .of_palette rfl

theorem Serves.held_live {moves : Prop} {p : PortId} {s : State} {a : Act} (hserves : Serves moves p s a) :
    (¬moves → HeldKept s a.st) ∧ LiveKept s a.st := by
  cases hserves with
  | change u result payload o l e hchange => exact ⟨hchange.held, hchange.live⟩
  | leave =>
    obtain ⟨⟨_, _, _, _, hst, -⟩, -⟩ := teardownStart_frame p .leave s
    rw [Act.andThen_st, answer_st, hst]
    exact ⟨fun _ => commitTeardown_held (p := p) rfl, .of_palette rfl⟩
  | free k e =>
    obtain ⟨_, _, _, hst⟩ := (releaseExtent_onExtents k s).1
    rw [Act.andThen_st, answer_st, hst]
    exact ⟨fun _ => .of_slots rfl, .of_palette rfl⟩
  | revoke k q =>
    obtain ⟨_, _, _, hst⟩ := (revokeGrant_onExtents k p q s).1
    rw [Act.andThen_st, answer_st, hst]
    exact ⟨fun _ => .of_slots rfl, .of_palette rfl⟩
  | begin j u hu =>
    obtain ⟨_, _, hst⟩ := startJob_emptyBuffer_frame (j := j) hu
    rw [Act.quiet_st, hst]
    exact ⟨fun _ => .of_slots rfl, .of_palette rfl⟩
  | serve j bytes =>
    obtain ⟨_, _, _, hst⟩ := (finishRead_onExtents p j bytes s).1
    rw [hst]
    exact ⟨fun _ => .of_slots rfl, .of_palette rfl⟩

/-- The resets. -/
def Instr.resets (c : Instr) : Prop := (∃ ns, c = .resetAssert ns) ∨ c = .resetRelease

/-- What the command leaves from one state to another. -/
structure Shown (c : Instr) (s t : State) : Prop where
  pending : t.pending = s.pending
  held : (¬∃ p, c = .moveNow p) → c ≠ .blankStart → c ≠ .resetRelease → HeldKept s t
  store : (¬∃ b, c = .accessCompletion b) → (¬∃ b, c = .tick b) → ¬Instr.resets c → t.store = s.store
  live : c ≠ .blankStart → c ≠ .resetRelease → LiveKept s t
  frame : c ≠ .frameStart → ¬Instr.resets c →
    t.scan.frameCounter = s.scan.frameCounter ∧ t.scan.timing = s.scan.timing ∧ t.scan.output = s.scan.output
  plan : c ≠ .blankStart → ¬Instr.resets c → t.session.plan = s.session.plan

theorem Shown.refl (c : Instr) (s : State) : Shown c s s :=
  ⟨rfl, fun _ _ _ => .of_slots rfl, fun _ _ _ => rfl, fun _ _ => .of_palette rfl, fun _ _ => ⟨rfl, rfl, rfl⟩,
    fun _ _ => rfl⟩

theorem Shown.trans {c : Instr} {s t u : State} (h : Shown c s t) (h' : Shown c t u) : Shown c s u where
  pending := h'.pending.trans h.pending
  held hmove hblank hrelease := (h.held hmove hblank hrelease).trans (h'.held hmove hblank hrelease)
  store hcompletion htick hreset := (h'.store hcompletion htick hreset).trans (h.store hcompletion htick hreset)
  live hblank hrelease b := (h'.live hblank hrelease b).trans (h.live hblank hrelease b)
  frame hframe hreset := by
    obtain ⟨hcounter, htiming, houtput⟩ := h.frame hframe hreset
    obtain ⟨hcounter', htiming', houtput'⟩ := h'.frame hframe hreset
    exact ⟨hcounter'.trans hcounter, htiming'.trans htiming, houtput'.trans houtput⟩
  plan hblank hreset := (h'.plan hblank hreset).trans (h.plan hblank hreset)

/-- What leaves slots, palette, store, position in the frames and plan is shown by no command. -/
theorem Shown.of_same {c : Instr} {s t : State} (hpending : t.pending = s.pending)
    (hslots : t.commit.slots = s.commit.slots) (hstore : t.store = s.store) (hpalette : t.palette = s.palette)
    (hframe : t.scan.frameCounter = s.scan.frameCounter ∧ t.scan.timing = s.scan.timing ∧ t.scan.output = s.scan.output)
    (hplan : t.session.plan = s.session.plan) : Shown c s t :=
  ⟨hpending, fun _ _ _ => .of_slots hslots, fun _ _ _ => hstore, fun _ _ => .of_palette hpalette, fun _ _ => hframe,
    fun _ _ => hplan⟩

theorem Shown.settle {c : Instr} {s : State} {a : Act} (h : Shown c s a.st) : Shown c s a.settle :=
  h.trans (.of_same (settle_pending a) (by rw [settle_commit]) (settle_store a) (settle_palette a)
    (by rw [settle_scan]; exact ⟨rfl, rfl, rfl⟩) (settle_plan a))

theorem Shown.arbitrate {c : Instr} {s t : State} (h : Shown c s t) : Shown c s (arbitrate t) := by
  obtain ⟨_, _, _, hst, -⟩ := arbitrate_frame t
  rw [hst]
  exact h.trans (.of_same rfl rfl rfl rfl ⟨rfl, rfl, rfl⟩ rfl)

theorem Shown.serves {c : Instr} {s : State} {p : PortId} {a : Act} (ha : Serves (∃ q, c = .moveNow q) p s a) :
    Shown c s a.st where
  pending := ha.frame.pending
  held hmove _ _ := ha.held_live.1 hmove
  store _ _ _ := ha.frame.store
  live _ _ := ha.held_live.2
  frame _ _ := by rw [ha.frame.scan]; exact ⟨rfl, rfl, rfl⟩
  plan _ _ := ha.frame.plan

/-- What any command makes of a state it leads to from `s`. -/
theorem shown_keptByCommand (c : Instr) (s : State) : KeptByCommand c (Shown c s) where
  resetAssert hc u _ h := h.trans
    ⟨rfl, fun _ _ _ => .of_slots rfl, fun _ _ hreset => absurd (.inl hc) hreset, fun _ _ => .of_palette rfl,
      fun _ hreset => absurd (.inl hc) hreset, fun _ hreset => absurd (.inl hc) hreset⟩
  resetRelease hc u _ h := h.trans
    ⟨rfl, fun _ _ hrelease => absurd hc hrelease, fun _ _ hreset => absurd (.inr hc) hreset,
      fun _ hrelease => absurd hc hrelease, fun _ hreset => absurd (.inr hc) hreset,
      fun _ hreset => absurd (.inr hc) hreset⟩
  select u p v h := h.trans (.of_same rfl rfl rfl rfl ⟨rfl, rfl, rfl⟩ rfl)
  transactionStart u p h := h.trans (.of_same rfl rfl rfl rfl ⟨rfl, rfl, rfl⟩ rfl)
  transactionEnd u p t inbound h := by
    obtain ⟨_, _, hst⟩ := endTransaction_frame p t inbound u
    rw [hst]
    exact h.trans (.of_same rfl rfl rfl rfl ⟨rfl, rfl, rfl⟩ rfl)
  expiry u p _ _ h := by
    obtain ⟨_, _, _, _, _, _, hst, -⟩ := expirePort_frame p u
    rw [hst]
    exact h.trans ⟨rfl, fun _ _ _ => commitTeardown_held (p := p) rfl, fun _ _ _ => rfl, fun _ _ => .of_palette rfl,
      fun _ _ => ⟨rfl, rfl, rfl⟩, fun _ _ => rfl⟩
  timeout u _ h := by
    rcases timeOutVote_frame u with hst | ⟨_, hst⟩ <;> rw [hst]
    · exact h
    · exact h.trans (.of_same rfl rfl rfl rfl ⟨rfl, rfl, rfl⟩ rfl)
  request u p r a _ _ ha h := (h.trans (.serves ha)).settle
  grants u h := h.arbitrate
  lineZero u _ _ h := by
    obtain ⟨_, _, _, _, hst⟩ := lineZeroFetch_frame u
    rw [hst]
    exact h.trans (.of_same rfl rfl rfl rfl ⟨rfl, rfl, rfl⟩ rfl)
  frame hc u _ _ h := by
    obtain ⟨_, _, _, _, _, _, _, _, _, hst⟩ := startFrame_frame u
    rw [hst]
    exact h.trans ⟨rfl, fun _ _ _ => .of_slots rfl, fun _ _ _ => rfl, fun _ _ => .of_palette rfl,
      fun hframe => absurd hc hframe, fun _ _ => rfl⟩
  line u _ _ h := by
    obtain ⟨_, _, _, _, _, _, _, _, hst⟩ := nextLine_frame u
    rw [hst]
    exact h.trans (.of_same rfl rfl rfl rfl ⟨rfl, rfl, rfl⟩ rfl)
  blank hc u _ _ h := by
    obtain ⟨_, _, _, _, _, _, hst⟩ := blankAct_frame u
    have hshown : Shown c u (blankAct u).st := by
      rw [hst]
      exact ⟨rfl, fun _ hblank => absurd hc hblank, fun _ _ _ => rfl, fun hblank => absurd hc hblank,
        fun _ _ => ⟨rfl, rfl, rfl⟩, fun hblank => absurd hc hblank⟩
    exact (h.trans hshown).settle.arbitrate
  tick hc u b _ h := by
    obtain ⟨⟨_, _, _, _, _, hst, -⟩, -⟩ := tickBank_frame b u
    have hshown : Shown c u (tickBank b u).st := by
      rw [hst]
      exact ⟨rfl, fun _ _ _ => .of_slots rfl, fun _ htick => absurd hc htick, fun _ _ => .of_palette rfl,
        fun _ _ => ⟨rfl, rfl, rfl⟩, fun _ _ => rfl⟩
    exact (h.trans hshown).settle.arbitrate
  completion hc u b a _ _ h := by
    obtain ⟨_, _, _, _, _, hst⟩ := completion_frame b a u
    rw [hst]
    exact h.trans ⟨rfl, fun _ _ _ => .of_slots rfl, fun hcompletion => absurd hc hcompletion, fun _ _ => .of_palette rfl,
      fun _ _ => ⟨rfl, rfl, rfl⟩, fun _ _ => rfl⟩

/-- What a command leaves. -/
theorem exec_shown {c : Instr} {s t : State} (h : exec c s = .next t) : Shown c s t :=
  (shown_keptByCommand c s).exec (.refl c s) h

/-- Every command answers a next state. -/
theorem exec_next (c : Instr) (s : State) : ∃ t, exec c s = .next t := by
  cases c <;> exact ⟨_, rfl⟩

end Sys2Proof.Machine
end

section
set_option Elab.async false

open Sys2Proof Sys2Proof.Machine

/-- Settles O3: no constructor is refused, and no event reaches the waiting commands. -/
theorem everyCommandAnswersNext : Obligations.EveryCommandAnswersNext := by
  intro c s
  obtain ⟨t, ht⟩ := exec_next c s
  exact ⟨t, ht, (exec_shown ht).pending⟩

/-- Settles O53: by what each event of a command leaves. -/
theorem onlySomeCommandsChangeWhatIsShown : Obligations.OnlySomeCommandsChangeWhatIsShown := by
  intro c s t h
  have hshown := exec_shown h
  exact ⟨hshown.held, hshown.store, hshown.live, hshown.frame, hshown.plan⟩

end

section
/-! PROOF. One step, the reset state and the reset commands. -/

set_option Elab.async false

namespace Sys2Proof.Machine

theorem exec_resetAssert_short {ns : Nat} (h : ns < 1000) (s : State) : exec (.resetAssert ns) s = .next s := by
  show Host.Outcome.next (if resetPulse ≤ ns ∧ s.resetN = true then assertReset s else s) = _
  rw [if_neg fun hlong => absurd hlong.1 (Nat.not_le.2 h)]

theorem exec_resetAssert_long {ns : Nat} {s : State} (h : 1000 ≤ ns) (hr : s.resetN = true) :
    exec (.resetAssert ns) s = .next (assertReset s) := by
  show Host.Outcome.next (if resetPulse ≤ ns ∧ s.resetN = true then assertReset s else s) = _
  rw [if_pos ⟨h, hr⟩]

/-- A controller after reset has everything of the reset state but the level of SEL_n. -/
theorem resetPort_eq (p : PortId) (v : Bool) : resetPort v = { State.reset.ports.get p with selHigh := v } := by
  cases p <;> rfl

/-- A command that waits for RESET_N to be high changes nothing while it is low. -/
theorem exec_of_resetN_low {c : Instr} {s : State} (h : s.resetN = false) (hrelease : c ≠ .resetRelease)
    (hstart : ∀ p, c ≠ .transactionStart p) (hend : ∀ p i k, c ≠ .transactionEnd p i k) : exec c s = .next s := by
  have running : ∀ f : State → State, (Host.Outcome.next (whenRunning f s) : Outcome) = .next s := fun f => by
    rw [whenRunning_reset f h]
  have guarded : ∀ t : State, (Host.Outcome.next (if s.resetN then t else s) : Outcome) = .next s := fun t => by
    rw [h]
    rfl
  have staged : ∀ k p, (Host.Outcome.next (serveStage k p s) : Outcome) = .next s := fun k p => by
    unfold serveStage serve
    exact running _
  cases c with
  | resetAssert ns =>
    show Host.Outcome.next (if resetPulse ≤ ns ∧ s.resetN = true then assertReset s else s) = _
    rw [if_neg fun hr => by simp [h] at hr]
  | resetRelease => exact absurd rfl hrelease
  | transactionStart p => exact absurd rfl (hstart p)
  | transactionEnd p i k => exact absurd rfl (hend p i k)
  | leaseExpiry p => exact guarded _
  | voteTimeout => exact guarded _
  | setLayer p | move p | showLayer p | hideLayer p | setDepth p | setSource p | setColours p | setClip p
  | setPaletteBase p | publishPalette p | retireLayer p => exact staged _ p
  | _ => exact running _

end Sys2Proof.Machine
end

section
set_option Elab.async false

open Sys2Proof Sys2Proof.Machine

/-- Settles O1: by the definition of a step. -/
theorem stepRunsFrontCommand : Obligations.StepRunsFrontCommand := by
  intro c rest s h
  rw [step, h]

/-- Settles O2: by the cases of the position that an idle step leads to. -/
theorem idleStepIsOnePixelTime : Obligations.IdleStepIsOnePixelTime := by
  intro s h
  have hstep : step s = .next (idle s) := by rw [step, h]
  have hlast : s.scan.pixelTime < s.scan.lastPixelTime ↔
      s.scan.pixelTime + 1 < s.scan.timing.width + s.scan.timing.hblank := by
    rw [ScanEngine.lastPixelTime]
    omega
  have hquiet : s.scan.quietLineEnd = true ↔ s.scan.phase = .blank ∧ s.scan.lineNo + 2 < s.scan.timing.vblank := by
    simp [ScanEngine.quietLineEnd]
  rw [hstep, idle]
  refine ⟨fun hr => by rw [hr]; rfl, fun hr hlt => ?_, fun hr hlt => ?_⟩
  · rw [if_pos hr, ScanEngine.nextPixel, if_pos (hlast.2 hlt)]
  · rw [if_pos hr, ScanEngine.nextPixel, if_neg (mt hlast.1 hlt)]
    simp only [hquiet]
    split <;> rfl

/-- Settles O4: each part of the reset state, read off. -/
theorem resetState : Obligations.ResetState := by
  have hports : ∀ p, State.reset.ports.get p = resetPort true := fun p => by cases p <;> rfl
  refine ⟨fun l => ?_, ⟨rfl, rfl, rfl, rfl, rfl, rfl, fun l => ?_, rfl, fun l => ?_, fun l => ?_⟩, fun p => ?_,
    ⟨fun w => ?_, rfl⟩, ⟨fun h => ?_, fun p => ?_⟩, fun b => ?_, fun p => ?_, fun b => ?_, fun p => ?_,
    ⟨rfl, rfl, rfl, rfl, fun p => ?_⟩, fun p => ?_⟩
  · simp [State.slot, State.reset]
  · simp [State.reset, resetScan]
  · simp [State.reset, resetScan]
  · simp [State.reset, resetScan]
  · cases p <;> rfl
  · simp [State.window, State.reset]
  · simp [State.extent, State.reset]
  · cases p <;> rfl
  · have hbank : State.reset.banks.get b = resetBank := by cases b <;> rfl
    have hrefresh : State.reset.refresh.get b = resetRefresh := by cases b <;> rfl
    rw [hbank, hrefresh]
    exact ⟨rfl, rfl, fun p => by cases p <;> rfl, rfl, rfl, fun x => by simp [resetRefresh], rfl, rfl⟩
  · cases p <;> rfl
  · have hblock : State.reset.block b = clearedBlock := by simp [State.block, State.reset]
    rw [hblock]
    exact ⟨rfl, fun i => by simp [clearedBlock], rfl, rfl⟩
  · cases p <;> rfl
  · cases p <;> rfl
  · rw [atnPin, hports]
    exact ⟨rfl, rfl, rfl, rfl, rfl, rfl⟩

/-- Settles O5: each invariant of the steps holds where a reset leads to. -/
theorem resetMeetsInvariants : Obligations.ResetMeetsInvariants := by
  have hqueues : QueuesOk State.reset := queuesOk_reset (v := fun _ => true) (fun p => by cases p <;> rfl) rfl
  have hdepths : DepthsAndPlan State.reset := depthsAndPlan_reset (fun _ => rfl) rfl rfl
  obtain ⟨hqueue, hjob⟩ := queuesOk_iff.2 hqueues
  obtain ⟨hslots, htiming⟩ := depthsAndPlan_iff.2 hdepths
  exact ⟨Memory.wf_nil, hqueue, by decide, by decide,
    paletteInv_iff.2 fun b => by simp [freeBlockClear, State.block, State.reset, clearedBlock],
    extentsInv_none rfl, countsInv_reset rfl rfl, hjob, hslots, htiming⟩

/-- Settles O6: a short pulse is none; after a long one the blocks are those of the reset state, and the pins are those of
a part in reset. -/
theorem resetAssertResetsTheBlocks : Obligations.ResetAssertResetsTheBlocks := by
  refine fun ns s => ⟨fun h => exec_resetAssert_short h s, fun h hr => ⟨_, exec_resetAssert_long h hr, rfl, rfl,
    fun p i k => ⟨rfl, rfl⟩, fun p => ?_, rfl, rfl, rfl, rfl, rfl, rfl, rfl, rfl, rfl, rfl, rfl⟩⟩
  exact (PerPort.get_tab _ p).trans (resetPort_eq p _)

/-- Settles O7: the blocks are those of the reset state, and each controller is but for the level of SEL_n. -/
theorem resetReleaseGivesTheResetState : Obligations.ResetReleaseGivesTheResetState := by
  intro s h
  show Host.Outcome.next (if s.resetN then s else releaseReset s) = _
  rw [h]
  rfl

/-- Settles O8: every command but the four that follow a pin waits for RESET_N to be high. -/
theorem nothingHappensWhileResetIsLow : Obligations.NothingHappensWhileResetIsLow := by
  intro c s h
  cases c with
  | resetRelease => trivial
  | transactionStart p =>
    show Host.Outcome.next _ = _
    cases hsel : (s.ports.get p).selHigh with
    | true => simp [h, State.setPort]
    | false =>
      rw [if_neg (by simp), whenRunning_reset _ h]
      refine congrArg Host.Outcome.next ?_
      rw [← hsel]
      exact (congrArg (fun ports => { s with ports }) (PerPort.set_get_self s.ports p)).symm
  | transactionEnd p i k =>
    show Host.Outcome.next _ = _
    cases hsel : (s.ports.get p).selHigh with
    | false => simp [h, State.setPort]
    | true =>
      rw [if_pos rfl, whenRunning_reset _ h]
      refine congrArg Host.Outcome.next ?_
      rw [← hsel]
      exact (congrArg (fun ports => { s with ports }) (PerPort.set_get_self s.ports p)).symm
  | _ => exact exec_of_resetN_low h (by simp) (by simp) (by simp)

end

section
/-! SUPPORT. Request rows: what each row's command serves, and the payload lengths of R208. -/

set_option Elab.async false

namespace Sys2Proof.Machine

theorem mem_lengthsFromTo {lo hi n : Nat} : n ∈ lengthsFromTo lo hi ↔ lo ≤ n ∧ n ≤ hi := by
  simp only [lengthsFromTo, List.mem_map, List.mem_range]
  constructor
  · rintro ⟨i, hi, rfl⟩
    omega
  · rintro ⟨hlo, hhi⟩
    exact ⟨n - lo, by omega, by omega⟩

/-- A listed code is one of the 33 of R208. -/
theorem mem_catalogue_of_codeListed {c : Byte} (h : codeListed c = true) :
    c.toNat ∈ catalogue.map fun e => e.1.toNat := by
  simp only [codeListed, List.any_eq_true, decide_eq_true_eq] at h
  obtain ⟨e, hmem, rfl⟩ := h
  exact List.mem_map.2 ⟨e, hmem, rfl⟩

theorem lengthsOf_paletteWrite (n : Nat) : (lengthsOf 0x2A).contains n = permittedLength 0x2A n := by
  have hlengths : lengthsOf 0x2A = (lengthsFromTo 1 16).map fun n => 2 + 3 * n := by decide +kernel
  have hpermitted : permittedLength 0x2A n = (decide (5 ≤ n) && decide (n ≤ 50) && decide ((n - 2) % 3 = 0)) := rfl
  rw [Bool.eq_iff_iff, hlengths, hpermitted]
  simp only [List.contains_iff_mem, List.mem_map, mem_lengthsFromTo, Bool.and_eq_true, decide_eq_true_eq]
  constructor
  · rintro ⟨a, ha, rfl⟩
    omega
  · intro h
    exact ⟨(n - 2) / 3, by omega, by omega⟩

theorem lengthsOf_write (n : Nat) : (lengthsOf 0x21).contains n = permittedLength 0x21 n := by
  have hlengths : lengthsOf 0x21 = lengthsFromTo 1 64 := by decide +kernel
  have hpermitted : permittedLength 0x21 n = (decide (1 ≤ n) && decide (n ≤ 64)) := rfl
  rw [Bool.eq_iff_iff, hlengths, hpermitted]
  simp only [List.contains_iff_mem, mem_lengthsFromTo, Bool.and_eq_true, decide_eq_true_eq]

/-- The session states in which a code is served (R169). -/
def serviceOf (code : Byte) : Service :=
  if code = 0x01 then .always else if code = 0x02 ∨ code = 0x04 then .unlessDraining else .joinedOnly

/-- How the messages of a request with this code arrive: after some the idle banks decide. -/
def finishOf (code : Byte) : Act → State :=
  if code.toNat ∈ [0x03, 0x18, 0x19, 0x1B, 0x21, 0x22, 0x23] then Act.settleAndArbitrate else Act.settle

/-- A row of the table is served with the lengths of its code, in the sessions of its code. -/
theorem exec_requestOf {c : Instr} {p : PortId} {code : Byte} {kind : Option Byte} (s : State)
    (h : requestOf c = some (p, code, kind)) :
    (∀ n, (lengthsOf code).contains n = permittedLength code n) ∧ ∃ body, exec c s =
      .next (serve p { code, lengths := lengthsOf code, kind } (serviceOf code) body (finishOf code) s) := by
  cases c <;> simp only [requestOf, Option.some.injEq, Prod.mk.injEq, reduceCtorEq] at h <;>
    obtain ⟨rfl, rfl, rfl⟩ := h <;> refine ⟨fun n => ?_, _, rfl⟩
  case write => exact lengthsOf_write n
  case paletteWrite => exact lengthsOf_paletteWrite n
  all_goals rw [Bool.eq_iff_iff]; simp [lengthsOf, catalogue, permittedLength, stageCode, stageLengths]

end Sys2Proof.Machine
end

section
/-! PROOF. The refusals that come before a request's own checks: unlisted codes (R196), lengths, session states (R169). -/

set_option Elab.async false

namespace Sys2Proof.Machine

section
variable {s : State} {p : PortId} {r : Request} (hasks : asks s p r = true) (result : Result)
include hasks

theorem settle_refusal : (answer p result [] s).settle = s.answered p r.tag result [] :=
  settle_answer _ _ _ hasks rfl

/-- A refusal settles to the answer alone; after some codes the idle banks decide. -/
theorem finishOf_refusal (code : Byte) : finishOf code (answer p result [] s) =
    if code.toNat ∈ [0x03, 0x18, 0x19, 0x1B, 0x21, 0x22, 0x23] then arbitrate (s.answered p r.tag result [])
    else s.answered p r.tag result [] := by
  unfold finishOf
  split
  · exact congrArg arbitrate (settle_refusal hasks result)
  · exact settle_refusal hasks result

end

section
variable {s : State} {p : PortId} {r : Request} {w : RequestRow} {v : Service} {body : List Byte → State → Act}

theorem execute_length (h : w.lengths.contains r.payload.length = false) :
    execute p w v r body s = answer p .length [] s := by
  simp only [execute, h, Bool.false_eq_true, if_false]

theorem execute_refused {result : Result} (hlength : w.lengths.contains r.payload.length = true)
    (h : refusalBySession v (s.sessionState p) = some result) :
    execute p w v r body s = answer p result [] s := by
  simp only [execute, hlength, if_true, h]

end

/-- An ABSENT port is refused all but Status, Join and Get Plan. -/
theorem refusalBySession_absent {code : Byte} (h : code.toNat ∉ [1, 2, 4]) :
    refusalBySession (serviceOf code) .absent = some .notJoined := by
  have hservice : serviceOf code = .joinedOnly := by
    unfold serviceOf
    rw [if_neg (by rintro rfl; simp at h), if_neg (by rintro (rfl | rfl) <;> simp at h)]
  rw [hservice]
  rfl

/-- A DRAINING port is refused all but Status. -/
theorem refusalBySession_draining {code : Byte} (h : code.toNat ≠ 1) :
    refusalBySession (serviceOf code) .draining = some .busy := by
  have hcode : code ≠ 0x01 := by rintro rfl; simp at h
  simp only [serviceOf, hcode, if_false]
  split <;> rfl

/-- A request row takes the requests of its code; a Stage row those of its kind, of an unlisted kind or without a byte. -/
theorem takes_of_requestOf {c : Instr} {p : PortId} {code : Byte} {kind : Option Byte} {r : Request}
    (h : requestOf c = some (p, code, kind)) (hcode : r.code = code)
    (hkind : ∀ k, kind = some k → ∀ b, r.payload.head? = some b → b = k ∨ b.toNat = 0 ∨ 11 < b.toNat) :
    RequestRow.takes { code, lengths := lengthsOf code, kind } r = true := by
  cases kind with
  | none => exact requestRow_takes hcode
  | some k =>
    have hstage : code = stageCode := by
      cases c <;> simp [requestOf] at h <;> exact h.2.1.symm
    subst hstage
    exact stageRow_takes hcode (hkind k rfl)

end Sys2Proof.Machine
end

section
set_option Elab.async false

open Sys2Proof Sys2Proof.Machine

/-- Settles O12: no code of the list is listed in the catalogue. -/
theorem unknownCodeIsAnswered : Obligations.UnknownCodeIsAnswered := by
  intro p r s hasks hcode
  have hunlisted : codeListed r.code = false :=
    Bool.eq_false_iff.2 fun h => hcode (mem_catalogue_of_codeListed h)
  obtain ⟨hready, hexecuting, -, -, hhead⟩ := asks_iff.1 hasks
  refine congrArg Host.Outcome.next ?_
  simp [serveUnknown, whenRunning_ready _ hready, PortController.nextRequest, hexecuting, hhead, hunlisted,
    settle_refusal hasks]

/-- Settles O14: every row of the table is served by its code's lengths and sessions, and a refusal is an answer alone. -/
theorem requestsAreRefusedInOrder : Obligations.RequestsAreRefusedInOrder := by
  intro c p code kind r s hrow hasks hcode hkind refused
  obtain ⟨hlengths, body, hexec⟩ := exec_requestOf s hrow
  rw [hexec, serve_asks _ _ _ _ hasks (takes_of_requestOf hrow hcode hkind)]
  have hrefused : ∀ result, finishOf code (answer p result [] s) = refused result := fun result =>
    finishOf_refusal hasks result code
  refine ⟨fun hlength => ?_, fun hlength habsent hothers => ?_, fun hlength hdraining hothers => ?_⟩
  · rw [execute_length ((hlengths _).trans hlength), hrefused]
  · rw [execute_refused ((hlengths _).trans hlength) (habsent ▸ refusalBySession_absent hothers), hrefused]
  · rw [execute_refused ((hlengths _).trans hlength) (hdraining ▸ refusalBySession_draining hothers), hrefused]

end

section
/-! SUPPORT. Fields read back from the bytes that encode them (11.1, 11.2). -/

set_option Elab.async false

namespace Sys2Proof.Machine

/-! ### Where a field lies -/

@[simp] theorem fieldByte_zero (b : Byte) (l : List Byte) : fieldByte (b :: l) 0 = b.toNat := rfl

@[simp] theorem fieldByte_succ (b : Byte) (l : List Byte) (i : Nat) : fieldByte (b :: l) (i + 1) = fieldByte l i := rfl

@[simp] theorem field_succ (b : Byte) (l : List Byte) (i n : Nat) : field (b :: l) (i + 1) n = field l i n := rfl

@[simp] theorem fieldSigned_succ (b : Byte) (l : List Byte) (i : Nat) :
    fieldSigned (b :: l) (i + 1) = fieldSigned l i := rfl

@[simp] theorem fieldColor_succ (b : Byte) (l : List Byte) (i : Nat) :
    fieldColor (b :: l) (i + 1) = fieldColor l i := rfl

section
variable {front l : List Byte} {i : Nat} (h : front.length ≤ i)
include h

/-! A field behind some bytes is that field of the rest. -/

theorem fieldByte_skip : fieldByte (front ++ l) i = fieldByte l (i - front.length) := by
  simp [fieldByte, List.getD_eq_getElem?_getD, List.getElem?_append_right h]

theorem field_skip (n : Nat) : field (front ++ l) i n = field l (i - front.length) n := by
  rw [field, field, List.drop_append, List.drop_eq_nil_of_le h, List.nil_append]

theorem fieldSigned_skip : fieldSigned (front ++ l) i = fieldSigned l (i - front.length) := by
  rw [fieldSigned, fieldSigned, field_skip h]

theorem fieldColor_skip : fieldColor (front ++ l) i = fieldColor l (i - front.length) := by
  rw [fieldColor, fieldColor, field_skip h]

end

/-! ### What a field reads -/

@[simp] theorem byteOf_toNat (n : Nat) : (byteOf n).toNat = n % 256 := by
  simp [byteOf]

theorem field_two (a b : Byte) (l : List Byte) : field (a :: b :: l) 0 2 = 256 * a.toNat + b.toNat := by
  simp [field, decodeNat]

theorem field_three (a b c : Byte) (l : List Byte) :
    field (a :: b :: c :: l) 0 3 = 65536 * a.toNat + 256 * b.toNat + c.toNat := by
  simp only [field, decodeNat, List.drop_zero, List.take_succ_cons, List.take_zero, List.foldl_cons, List.foldl_nil]
  omega

/-- A 2-byte field of a value within 16 bits. -/
theorem field_encode16 {n : Nat} (h : n < 65536) (l : List Byte) : field (encode16 n ++ l) 0 2 = n := by
  rw [encode16, List.cons_append, List.cons_append, List.nil_append, field_two, byteOf_toNat, byteOf_toNat]
  omega

/-- A 3-byte field of a value within 24 bits. -/
theorem field_encode24 {n : Nat} (h : n < 16777216) (l : List Byte) : field (encode24 n ++ l) 0 3 = n := by
  simp only [encode24, List.cons_append, List.nil_append, field_three, byteOf_toNat]
  omega

theorem fieldColor_encodeColor (c : Color) (l : List Byte) : fieldColor (encodeColor c ++ l) 0 = c := by
  rw [fieldColor, encodeColor, field_encode24 c.isLt]
  simp

theorem fieldSigned_encodeSigned {x : Int} (hlo : -32768 ≤ x) (hhi : x ≤ 32767) (l : List Byte) :
    fieldSigned (encodeSigned x ++ l) 0 = x := by
  rw [fieldSigned, encodeSigned, field_encode16 (BitVec.isLt _), BitVec.ofNat_toNat, BitVec.setWidth_eq,
    BitVec.toInt_ofInt]
  exact Int.bmod_eq_of_le (by omega) (by omega)

/-! ### Ranges -/

theorem within_of_le {lo hi v : Nat} (hlo : lo ≤ v) (hhi : v ≤ hi) : within lo hi v = some v := if_pos ⟨hlo, hhi⟩

theorem within_eq_none {lo hi v : Nat} (h : v < lo ∨ hi < v) : within lo hi v = none := if_neg (by omega)

@[simp] theorem below_val {n : Nat} (i : Fin n) : below n i.val = some i := dif_pos i.isLt

theorem below_eq_none {n v : Nat} (h : n ≤ v) : below n v = none := dif_neg (by omega)

/-- A byte reads back the number it encodes. -/
theorem byteOf_val_mod {n : Nat} (i : Fin n) (h : n ≤ 256) : i.val % 256 = i.val := Nat.mod_eq_of_lt (by omega)

theorem position_of_inRange {x : Int} (h : positionInRange x = true) : position x = some x := by
  simp only [positionInRange, Bool.and_eq_true, decide_eq_true_eq] at h
  exact if_pos h

theorem position_of_not_inRange {x : Int} (h : positionInRange x = false) : position x = none :=
  if_neg fun hx => by simp [positionInRange, hx] at h

/-- A position in range survives its two signed bytes. -/
theorem fieldSigned_position {x : Int} (h : positionInRange x = true) (l : List Byte) :
    fieldSigned (encodeSigned x ++ l) 0 = x := by
  simp only [positionInRange, Bool.and_eq_true, decide_eq_true_eq] at h
  exact fieldSigned_encodeSigned (by omega) (by omega) l

theorem inRange_iff {lo hi v : Nat} : Machine.inRange lo hi v = true ↔ lo ≤ v ∧ v ≤ hi := by
  simp [Machine.inRange]

end Sys2Proof.Machine
end

section
/-! PROOF. Records decode to what was encoded (11.1 to 11.3). -/

set_option Elab.async false

namespace Sys2Proof.Machine

/-! ### Lengths of the encoders -/

@[simp] theorem encode16_length (n : Nat) : (encode16 n).length = 2 := by simp [encode16]
@[simp] theorem encode24_length (n : Nat) : (encode24 n).length = 3 := by simp [encode24]
@[simp] theorem encodeSigned_length (x : Int) : (encodeSigned x).length = 2 := by simp [encodeSigned]
@[simp] theorem encodeColor_length (c : Color) : (encodeColor c).length = 3 := by simp [encodeColor]
@[simp] theorem encodeCodeMap_length (m : CodeMap) : (encodeCodeMap m).length = 2 := by simp [encodeCodeMap]
@[simp] theorem encodeSource_length (o : Option Source) : (encodeSource o).length = 6 := by
  cases o <;> simp [encodeSource]
@[simp] theorem encodeClip_length (c : Option Clip) : (encodeClip c).length = 8 := by
  cases c <;> simp [encodeClip]
@[simp] theorem encodeBand_length (b : Option Band) : (encodeBand b).length = 2 := by
  cases b <;> simp [encodeBand]
@[simp] theorem encodeQuotas_length (q : Quotas) : (encodeQuotas q).length = 8 := by simp [encodeQuotas]
@[simp] theorem encodeDescriptor_length (d : Descriptor) : (encodeDescriptor d).length = 46 := by
  simp [encodeDescriptor]
@[simp] theorem encodeSettings_length (w : WinSettings) : (encodeSettings w).length = 13 := by simp [encodeSettings]
@[simp] theorem encodePlan_length (k : Plan) : (encodePlan k).length = 44 := by simp [encodePlan]

/-! ### Parts of a record -/

section
variable (b : Byte) (l : List Byte) (i : Nat)

@[simp] theorem decodeSource_succ : decodeSource (b :: l) (i + 1) = decodeSource l i := rfl
@[simp] theorem decodeClip_succ : decodeClip (b :: l) (i + 1) = decodeClip l i := rfl
@[simp] theorem decodeCodeMap_succ : decodeCodeMap (b :: l) (i + 1) = decodeCodeMap l i := rfl
@[simp] theorem decodeBand_succ : decodeBand (b :: l) (i + 1) = decodeBand l i := rfl

end

section
variable {front l : List Byte} {i : Nat} (h : front.length ≤ i)
include h

theorem decodeSource_skip : decodeSource (front ++ l) i = decodeSource l (i - front.length) := by
  have h1 : front.length ≤ i + 1 := by omega
  have h4 : front.length ≤ i + 4 := by omega
  simp only [decodeSource, fieldByte_skip h, field_skip h1, field_skip h4, Nat.sub_add_comm h]

theorem decodeClip_skip : decodeClip (front ++ l) i = decodeClip l (i - front.length) := by
  have h2 : front.length ≤ i + 2 := by omega
  have h4 : front.length ≤ i + 4 := by omega
  have h6 : front.length ≤ i + 6 := by omega
  simp only [decodeClip, field_skip h, field_skip h2, field_skip h4, field_skip h6, Nat.sub_add_comm h]

theorem decodeCodeMap_skip : decodeCodeMap (front ++ l) i = decodeCodeMap l (i - front.length) := by
  simp only [decodeCodeMap, field_skip h]

theorem decodeBand_skip : decodeBand (front ++ l) i = decodeBand l (i - front.length) := by
  have h1 : front.length ≤ i + 1 := by omega
  simp only [decodeBand, fieldByte_skip h, fieldByte_skip h1, Nat.sub_add_comm h]

theorem decodeQuotas_skip : decodeQuotas (front ++ l) i = decodeQuotas l (i - front.length) := by
  have h1 : front.length ≤ i + 1 := by omega
  have h2 : front.length ≤ i + 2 := by omega
  have h4 : front.length ≤ i + 4 := by omega
  have h5 : front.length ≤ i + 5 := by omega
  have h6 : front.length ≤ i + 6 := by omega
  simp only [decodeQuotas, fieldByte_skip h, fieldByte_skip h1, field_skip h2, fieldByte_skip h4, fieldByte_skip h5,
    decodeBand_skip h6, Nat.sub_add_comm h]

end

theorem decodeSource_encodeSource {o : Source} (h : o.inRange = true) (l : List Byte) :
    decodeSource (encodeSource (some o) ++ l) 0 = some o := by
  simp only [Source.inRange, Bool.and_eq_true, inRange_iff] at h
  obtain ⟨hoffset, hstride⟩ := h
  simp [decodeSource, encodeSource, field_skip, field_encode24 (show o.offset < 16777216 by omega),
    field_encode16 (show o.stride < 65536 by omega), byteOf_val_mod, within_of_le, hoffset, hstride]

theorem decodeClip_encodeClip {c : Clip} (h : c.inRange = true) (l : List Byte) :
    decodeClip (encodeClip (some c) ++ l) 0 = some c := by
  simp only [Clip.inRange, Bool.and_eq_true, decide_eq_true_eq] at h
  obtain ⟨⟨⟨hx, hx1⟩, hy⟩, hy1⟩ := h
  simp [decodeClip, encodeClip, field_skip, field_encode16 (show c.x0 < 65536 by omega),
    field_encode16 (show c.y0 < 65536 by omega), field_encode16 (show c.x1 < 65536 by omega),
    field_encode16 (show c.y1 < 65536 by omega), within_of_le, hx, hx1, hy, hy1, hx.trans hx1, hy.trans hy1]

theorem codeEntryCode_lt (e : CodeEntry) : codeEntryCode e < 8 := by cases e <;> decide

theorem decodeCodeEntry_code (e : CodeEntry) : decodeCodeEntry (codeEntryCode e) = some e := by cases e <;> rfl

theorem decodeCodeMap_encodeCodeMap (m : CodeMap) (l : List Byte) :
    decodeCodeMap (encodeCodeMap m ++ l) 0 = some m := by
  obtain ⟨e0, e1, e2, e3⟩ := m
  have h0 := codeEntryCode_lt e0
  have h1 := codeEntryCode_lt e1
  have h2 := codeEntryCode_lt e2
  have h3 := codeEntryCode_lt e3
  obtain ⟨v, hv⟩ : ∃ v, v = codeEntryCode e0 + 8 * codeEntryCode e1 + 64 * codeEntryCode e2 + 512 * codeEntryCode e3 :=
    ⟨_, rfl⟩
  have hfield : field (encodeCodeMap ⟨e0, e1, e2, e3⟩ ++ l) 0 2 = v := by
    rw [hv]
    exact field_encode16 (by dsimp only; omega) l
  have hv0 : v % 8 = codeEntryCode e0 := by omega
  have hv1 : v / 8 % 8 = codeEntryCode e1 := by omega
  have hv2 : v / 64 % 8 = codeEntryCode e2 := by omega
  have hv3 : v / 512 % 8 = codeEntryCode e3 := by omega
  simp [decodeCodeMap, hfield, hv0, hv1, hv2, hv3, decodeCodeEntry_code, show v < 4096 by omega]

/-- Six Booleans packed in a byte are its bits. -/
theorem packed_testBit (b0 b1 b2 b3 b4 b5 : Bool) :
    let v := b0.toNat + 2 * b1.toNat + 4 * b2.toNat + 8 * b3.toNat + 16 * b4.toNat + 32 * b5.toNat
    v ≤ 63 ∧ v.testBit 0 = b0 ∧ v.testBit 1 = b1 ∧ v.testBit 2 = b2 ∧ v.testBit 3 = b3 ∧ v.testBit 4 = b4 ∧
      v.testBit 5 = b5 := by
  revert b0 b1 b2 b3 b4 b5
  decide

/-! ### Descriptors, settings and plans -/

section
variable (d : Descriptor) (l : List Byte)

theorem announcedBy_source (h : d.source.all Source.inRange = true) :
    announcedBy d.source.isSome (decodeSource (encodeSource d.source ++ l) 0) = some d.source := by
  cases hsource : d.source with
  | none => rfl
  | some o => simp [announcedBy, decodeSource_encodeSource (show o.inRange = true by simpa [hsource] using h)]

theorem announcedBy_clip (h : d.clip.all Clip.inRange = true) :
    announcedBy d.clip.isSome (decodeClip (encodeClip d.clip ++ l) 0) = some d.clip := by
  cases hclip : d.clip with
  | none => rfl
  | some c => simp [announcedBy, decodeClip_encodeClip (show c.inRange = true by simpa [hclip] using h)]

theorem announcedBy_paletteBase : announcedBy d.paletteBase.isSome (below 64 ((d.paletteBase.elim 0 Fin.val) % 256)) =
    some d.paletteBase := by
  cases d.paletteBase with
  | none => rfl
  | some b => simp [announcedBy, byteOf_val_mod]

theorem announcedBy_key : announcedBy d.key.isSome
    (some (BitVec.ofNat 16 (field (encode16 (d.key.elim 0 BitVec.toNat) ++ l) 0 2))) = some d.key := by
  cases d.key with
  | none => rfl
  | some k => simp [announcedBy, field_encode16 k.isLt]

theorem decodeFormat_formatCode (f : Format) : decodeFormat (formatCode f).toNat = some f := by cases f <;> rfl

theorem decodeDescriptor_append (front : List Byte) :
    decodeDescriptor (front ++ l) front.length = decodeDescriptor l 0 := by
  simp only [decodeDescriptor, field_skip, fieldByte_skip, fieldSigned_skip, fieldColor_skip, decodeSource_skip,
    decodeClip_skip, decodeCodeMap_skip, Nat.le_add_right, Nat.le_refl, Nat.add_sub_cancel_left, Nat.sub_self,
    Nat.zero_add]

theorem decodeDescriptor_encodeDescriptor (h : d.inRange = true) : decodeDescriptor (encodeDescriptor d) 0 = some d := by
  simp only [Descriptor.inRange, Bool.and_eq_true, decide_eq_true_eq, inRange_iff] at h
  obtain ⟨⟨⟨⟨⟨⟨⟨hwidth, hheight⟩, hx⟩, hy⟩, hax⟩, hay⟩, hsource⟩, hclip⟩ := h
  obtain ⟨hflags, h0, h1, h2, h3, h4, h5⟩ := packed_testBit d.visible d.movable d.source.isSome d.paletteBase.isSome
    d.key.isSome d.clip.isSome
  have hclipped := announcedBy_clip d [] hclip
  rw [List.append_nil] at hclipped
  simp [-Nat.testBit_zero, decodeDescriptor, encodeDescriptor, descriptorFlags, field_skip, fieldByte_skip, fieldSigned_skip,
    fieldColor_skip, decodeSource_skip, decodeClip_skip, decodeCodeMap_skip, decodeFormat_formatCode, byteOf_val_mod,
    field_encode16 (show d.width < 65536 by omega), field_encode16 (show d.height < 65536 by omega),
    field_encode16 (show d.ax < 65536 by omega), field_encode16 (show d.ay < 65536 by omega), fieldSigned_position hx,
    fieldSigned_position hy, position_of_inRange hx, position_of_inRange hy, within_of_le, hwidth, hheight,
    show d.ax ≤ d.width - 1 by omega, show d.ay ≤ d.height - 1 by omega, Nat.mod_eq_of_lt (Nat.lt_of_le_of_lt hflags (by decide : 63 < 256)),
    hflags, h0, h1, h2, h3, h4, h5, announcedBy_source d _ hsource, announcedBy_paletteBase, announcedBy_key,
    decodeCodeMap_encodeCodeMap, hclipped, fieldColor_encodeColor]

end

/-- Four Booleans packed in a byte are its bits. -/
theorem packed_options (b0 b1 b2 b3 : Bool) :
    let v := b0.toNat + 2 * b1.toNat + 4 * b2.toNat + 8 * b3.toNat
    v ≤ 15 ∧ v.testBit 0 = b0 ∧ v.testBit 1 = b1 ∧ v.testBit 2 = b2 ∧ v.testBit 3 = b3 := by
  revert b0 b1 b2 b3
  decide

/-! What the four option bits say of the settings. -/

theorem WinMode.of_flag (m : WinMode) : (if m = .continuous then WinMode.continuous else .oneShot) = m := by
  cases m <;> rfl

theorem WinScope.of_flag (m : WinScope) : (if m = .all then WinScope.all else .owner) = m := by
  cases m <;> rfl

theorem WinReport.of_flag (m : WinReport) : (if m = .faults then WinReport.faults else .results) = m := by
  cases m <;> rfl

theorem reference_of_flag (o : Option Color) : (if o = none then none else some (o.getD 0#24)) = o := by
  cases o <;> rfl

theorem decodeSettings_append (l front : List Byte) :
    decodeSettings (front ++ l) front.length = decodeSettings l 0 := by
  simp only [decodeSettings, field_skip, fieldByte_skip, fieldColor_skip, Nat.le_add_right, Nat.le_refl,
    Nat.add_sub_cancel_left, Nat.sub_self, Nat.zero_add]

theorem decodeSettings_encodeSettings (w : WinSettings) (h : w.inRange = true) :
    decodeSettings (encodeSettings w) 0 = some w := by
  simp only [WinSettings.inRange, Bool.and_eq_true, inRange_iff] at h
  obtain ⟨⟨⟨⟨hx, hy⟩, hw⟩, hh⟩, hthreshold⟩ := h
  obtain ⟨hoptions, h0, h1, h2, h3⟩ := packed_options (decide (w.mode = .continuous)) w.reference.isNone
    (decide (w.scope = .all)) (decide (w.report = .faults))
  have hcolor := fieldColor_encodeColor (w.reference.getD 0#24) []
  rw [List.append_nil] at hcolor
  simp [-Nat.testBit_zero, decodeSettings, encodeSettings, windowOptions, field_skip, fieldByte_skip, fieldColor_skip,
    field_encode16 (show w.x < 65536 by omega), field_encode16 (show w.y < 65536 by omega),
    field_encode16 (show w.w < 65536 by omega), field_encode16 (show w.h < 65536 by omega), within_of_le, hx, hy, hw, hh,
    hthreshold, Nat.mod_eq_of_lt (Nat.lt_of_le_of_lt hoptions (by decide : 15 < 256)), hoptions, h0, h1, h2, h3,
    Nat.mod_eq_of_lt (show w.threshold < 256 by omega), hcolor, WinMode.of_flag, WinScope.of_flag,
    WinReport.of_flag, reference_of_flag]

theorem decodeBand_encodeBand {o : Option Band} (h : (o.all fun b => decide (b.low ≤ b.high) && decide (b.high ≤ 63)) = true)
    (l : List Byte) : decodeBand (encodeBand o ++ l) 0 = some o := by
  cases o with
  | none => rfl
  | some b =>
    simp only [Option.all_some, Bool.and_eq_true, decide_eq_true_eq] at h
    simp [decodeBand, encodeBand, Nat.mod_eq_of_lt (show b.low < 256 by omega),
      Nat.mod_eq_of_lt (show b.high < 256 by omega), h, show ¬b.high = 255 by omega]

theorem decodeQuotas_encodeQuotas {q : Quotas} (h : q.inRange = true) (l : List Byte) :
    decodeQuotas (encodeQuotas q ++ l) 0 = some q := by
  simp only [Quotas.inRange, Bool.and_eq_true, inRange_iff] at h
  obtain ⟨⟨⟨⟨⟨hlayers, hextents⟩, hrows⟩, hblocks⟩, hwindows⟩, hband⟩ := h
  simp [decodeQuotas, encodeQuotas, fieldByte_skip, decodeBand_skip,
    Nat.mod_eq_of_lt (show q.layers < 256 by omega), Nat.mod_eq_of_lt (show q.extents < 256 by omega),
    field_encode16 (show q.rows < 65536 by omega), Nat.mod_eq_of_lt (show q.blocks < 256 by omega),
    Nat.mod_eq_of_lt (show q.windows < 256 by omega), within_of_le, hlayers, hextents, hrows, hblocks, hwindows,
    decodeBand_encodeBand (by simpa using hband)]

theorem decodePlan_encodePlan (k : Plan) (h : k.inRange = true) : decodePlan (encodePlan k) = some k := by
  simp only [Plan.inRange, Timing.inRange, Bool.and_eq_true, List.all_eq_true, inRange_iff] at h
  obtain ⟨hquotas, ⟨⟨⟨hwidth, hheight⟩, hhblank⟩, hvblank⟩, hdivider⟩ := h
  have h0 := decodeQuotas_encodeQuotas (hquotas .h0 (by simp))
  have h1 := decodeQuotas_encodeQuotas (hquotas .h1 (by simp))
  have h2 := decodeQuotas_encodeQuotas (hquotas .h2 (by simp))
  have h3 := decodeQuotas_encodeQuotas (hquotas .h3 (by simp))
  simp only [PerPort.get] at h0 h1 h2 h3
  simp [decodePlan, decodeTiming, encodePlan, field_skip, fieldByte_skip, fieldColor_skip, decodeQuotas_skip, h0, h1, h2,
    h3, field_encode16 (show k.timing.width < 65536 by omega), field_encode16 (show k.timing.height < 65536 by omega),
    field_encode16 (show k.timing.hblank < 65536 by omega), Nat.mod_eq_of_lt (show k.timing.vblank < 256 by omega),
    Nat.mod_eq_of_lt (show k.timing.divider < 256 by omega), within_of_le, hwidth, hheight, hhblank, hvblank, hdivider,
    fieldColor_encodeColor]
  obtain ⟨_, _, _, output⟩ := k
  cases output <;> rfl

/-! ### Edits -/

@[simp] theorem decodeDescriptor_succ (b : Byte) (l : List Byte) (i : Nat) :
    decodeDescriptor (b :: l) (i + 1) = decodeDescriptor l i := rfl

section
variable (l : Fin 16)

theorem decodeEdit_setLayer {d : Descriptor} (h : d.inRange = true) :
    decodeEdit (0x01 :: byteOf l.val :: encodeDescriptor d) = some (.setLayer l d) := by
  simp [decodeEdit, byteOf_val_mod, decodeDescriptor_encodeDescriptor d h]

theorem decodeEdit_move {x y : Int} (hx : positionInRange x = true) (hy : positionInRange y = true) :
    decodeEdit (0x02 :: byteOf l.val :: (encodeSigned x ++ encodeSigned y)) = some (.move l x y) := by
  have hlast := fieldSigned_position hy []
  rw [List.append_nil] at hlast
  simp [decodeEdit, byteOf_val_mod, fieldSigned_skip, fieldSigned_position hx, hlast, position_of_inRange hx,
    position_of_inRange hy]

theorem decodeEdit_setSource {o : Source} (h : o.inRange = true) :
    decodeEdit (0x06 :: byteOf l.val :: 1 :: encodeSource (some o)) = some (.setSource l (some o)) := by
  have hsource := decodeSource_encodeSource h []
  rw [List.append_nil] at hsource
  simp [decodeEdit, byteOf_val_mod, optionalBy, hsource]

theorem decodeEdit_setClip {c : Clip} (h : c.inRange = true) :
    decodeEdit (0x08 :: byteOf l.val :: 1 :: encodeClip (some c)) = some (.setClip l (some c)) := by
  have hclip := decodeClip_encodeClip h []
  rw [List.append_nil] at hclip
  simp [decodeEdit, byteOf_val_mod, optionalBy, hclip]

theorem decodeEdit_setColours (fill c1 c2 c3 : Color) (m : CodeMap) (key : Half) (keyed : Bool) :
    decodeEdit (0x07 :: byteOf l.val :: (encodeColor fill ++ encodeColor c1 ++ encodeColor c2 ++ encodeColor c3 ++
      encodeCodeMap m ++ byteOf keyed.toNat :: encode16 key.toNat)) =
      some (.setColours l fill c1 c2 c3 m (if keyed then some key else none)) := by
  have hkey := field_encode16 key.isLt []
  rw [List.append_nil] at hkey
  cases keyed <;>
    simp [decodeEdit, byteOf_val_mod, optionalBy, fieldColor_skip, fieldByte_skip, field_skip, decodeCodeMap_skip,
      fieldColor_encodeColor, decodeCodeMap_encodeCodeMap, hkey]

end

end Sys2Proof.Machine
end

section
set_option Elab.async false

open Sys2Proof Sys2Proof.Machine

/-- Settles O15: each decoder on the bytes of its encoder, field by field. -/
theorem recordsDecodeToWhatWasEncoded : Obligations.RecordsDecodeToWhatWasEncoded := by
  refine ⟨⟨decodePlan_encodePlan, fun d front h => ?_, fun w front h => ?_⟩, fun l => ?_⟩
  · rw [decodeDescriptor_append, decodeDescriptor_encodeDescriptor d h]
  · rw [decodeSettings_append, decodeSettings_encodeSettings w h]
  · refine ⟨fun d h => decodeEdit_setLayer l h, fun x y hx hy => decodeEdit_move l hx hy, ?_, ?_, fun z => ?_,
      fun o h => decodeEdit_setSource l h, fun rest h => ?_, fun fill c1 c2 c3 m key =>
      ⟨decodeEdit_setColours l fill c1 c2 c3 m key true, decodeEdit_setColours l fill c1 c2 c3 m key false⟩,
      fun c h => decodeEdit_setClip l h, fun rest h => ?_, fun b => ⟨?_, ?_, ?_⟩, ?_⟩
    all_goals simp [decodeEdit, byteOf_val_mod, optionalBy, *]

end

section
/-! SUPPORT. Requests that are served, and messages of which a port gets two. -/

set_option Elab.async false

namespace Sys2Proof.Machine

/-- A request of a permitted length, in a session in which its code is served, is executed by its row's body. -/
theorem serve_served {s : State} {p : PortId} {r : Request} {code : Byte} {v : Service}
    (body : List Byte → State → Act) (finish : Act → State) (hasks : asks s p r = true) (hcode : r.code = code)
    (hlength : (lengthsOf code).contains r.payload.length = true)
    (hserved : refusalBySession v (s.sessionState p) = none) :
    serve p (requestRow code) v body finish s = finish (body r.payload s) := by
  rw [serve_asks _ _ _ _ hasks (requestRow_takes hcode)]
  have hrow : (requestRow code).lengths.contains r.payload.length = true := hlength
  simp only [execute, hrow, if_true, hserved]

section
variable {s : State} {p : PortId} {r : Request} {result : Result} {payload : List Byte}

/-- A request whose body is an answer over a state with the same ports. -/
theorem settle_body_answer {a : Act} {u : State} (hasks : asks s p r = true) (ha : a = answer p result payload u)
    (hu : u.ports = s.ports) : a.settle = u.answered p r.tag result payload :=
  ha ▸ settle_answer result payload u hasks hu

/-- A request whose body is an answer alone. -/
theorem settle_body_refusal {a : Act} (hasks : asks s p r = true) (ha : a = answer p result payload s) :
    a.settle = s.answered p r.tag result payload :=
  settle_body_answer hasks ha rfl

end

/-- A list with the elements of a pair is the pair in either order. -/
theorem eq_of_perm_pair {α : Type} {l : List α} {a b : α} (h : l.Perm [a, b]) : l = [a, b] ∨ l = [b, a] := by
  match l, h.length_eq with
  | [x, y], _ =>
    have hx : x = a ∨ x = b := by simpa using h.subset (show x ∈ [x, y] by simp)
    rcases hx with rfl | rfl
    · left
      rw [List.singleton_perm.1 ((List.perm_cons x).1 h).symm |> List.cons.inj |>.1]
    · right
      have h' : [x, y].Perm [x, a] := h.trans (List.Perm.swap x a [])
      rw [List.singleton_perm.1 ((List.perm_cons x).1 h').symm |> List.cons.inj |>.1]

section
variable {a : Act} (hend : ∀ q, Msg.sessionEnd q ∉ a.out.map Prod.snd)
include hend

/-- A port with two messages gets them in either order. -/
theorem settle_port_of_pair {q : PortId} {m n : Msg}
    (hm : (a.out.map Prod.snd).filter (Msg.goesTo q) = [m, n]) :
    let after := PortController.afterMsg (a.st.session.records.get q).takesEvents
    a.settle.ports.get q = after (after (a.st.ports.get q) m) n ∨
      a.settle.ports.get q = after (after (a.st.ports.get q) n) m := by
  have hperm := (arrange_perm (a.st.arrivals.headD []) a.out).filter (Msg.goesTo q)
  rw [hm] at hperm
  have hport := deliverAll_port q (arrange (a.st.arrivals.headD []) a.out)
    { a.st with arrivals := a.st.arrivals.tail } fun p => by rw [mem_arrange]; exact hend p
  rcases eq_of_perm_pair hperm with h | h <;> rw [h] at hport
  · exact .inl hport
  · exact .inr hport

end

end Sys2Proof.Machine
end

section
/-! PROOF. Set View, Status, Get Plan and Join. -/

set_option Elab.async false

namespace Sys2Proof.Machine

variable {s : State} {p : PortId} {r : Request}

theorem decodeView_of_lt {v : Byte} (h : v.toNat < 2) :
    decodeView v.toNat = some (if v = 0 then View.live else View.staged) := by
  have hv : v = 0 ∨ v = 1 := by
    rcases (show v.toNat = 0 ∨ v.toNat = 1 by omega) with h | h
    · exact .inl (BitVec.eq_of_toNat_eq h)
    · exact .inr (BitVec.eq_of_toNat_eq h)
  rcases hv with rfl | rfl <;> rfl

theorem decodeView_of_le {v : Nat} (h : 2 ≤ v) : decodeView v = none := by
  obtain ⟨n, rfl⟩ : ∃ n, v = n + 2 := ⟨v - 2, by omega⟩
  rfl

theorem exec_setView (h : asksFor s p r 0x0A 1 = true) :
    exec (.setView p) s = .next (setViewBody p r.payload s).settle :=
  congrArg Host.Outcome.next (serve_asksFor .joinedOnly (setViewBody p) Act.settle h (by decide))

theorem exec_status (hasks : asks s p r = true) (hcode : r.code = 0x01) (hpayload : r.payload = []) :
    exec (.status p) s = .next (s.answered p r.tag .ok (statusPayload s p)) := by
  have hserved : refusalBySession .always (s.sessionState p) = none := by cases s.sessionState p <;> rfl
  refine congrArg Host.Outcome.next ((serve_served (statusBody p) Act.settle hasks hcode (by rw [hpayload]; rfl)
    hserved).trans ?_)
  exact settle_body_refusal hasks rfl

theorem served_unless_draining (h : s.sessionState p ≠ .draining) :
    refusalBySession .unlessDraining (s.sessionState p) = none := by
  cases hstate : s.sessionState p with
  | absent => rfl
  | joined => rfl
  | draining => exact absurd hstate h

theorem exec_getPlan (hasks : asks s p r = true) (hcode : r.code = 0x04) (hlength : r.payload.length = 1)
    (hserved : s.sessionState p ≠ .draining) :
    exec (.getPlan p) s = .next (getPlanBody p r.payload s).settle :=
  congrArg Host.Outcome.next (serve_served (getPlanBody p) Act.settle hasks hcode (by rw [hlength]; rfl)
    (served_unless_draining hserved))

theorem getPlanBody_inForce :
    getPlanBody p [0] s = answer p .ok (planPayload s s.session.plan) s := rfl

theorem getPlanBody_proposed : getPlanBody p [1] s = match s.session.planState.proposal? with
    | none => answer p .noObject [] s
    | some q => answer p .ok (planPayload s q.plan ++
        [encodePort q.proposer, encodePortSet q.voters, encodePortSet q.accepted, byteOf q.remaining]) s := by
  rfl

theorem getPlanBody_other {v : Byte} (h : 2 ≤ v.toNat) : getPlanBody p [v] s = answer p .field [] s := by
  obtain ⟨n, hn⟩ : ∃ n, v.toNat = n + 2 := ⟨v.toNat - 2, by omega⟩
  simp [getPlanBody, hn]

theorem exec_join (hasks : asks s p r = true) (hcode : r.code = 0x02) (hlength : r.payload.length = 2)
    (hserved : s.sessionState p ≠ .draining) : exec (.join p) s = .next (joinBody p r.payload s).settle :=
  congrArg Host.Outcome.next (serve_served (joinBody p) Act.settle hasks hcode (by rw [hlength]; rfl)
    (served_unless_draining hserved))

theorem joinBody_joined {payload : List Byte} (h : s.sessionState p = .joined) :
    joinBody p payload s = answer p .field [] s := if_pos h

theorem transferJoin_eq (hjob : (s.transfer.get p).job = none) : transferJoin p s =
    { s with
      banks := banksGivenUp s p
      transfer := s.transfer.set p { cursor := none, buffer := .empty, job := none } } := by
  simp [transferJoin, emptyBuffer_eq hjob, State.setTransfer]

section
variable {lease v : Byte} (habsent : s.sessionState p = .absent)
include habsent

theorem joinBody_field (hv : 2 ≤ v.toNat) : joinBody p [lease, v] s = answer p .field [] s := by
  simp [joinBody, habsent, decodeView_of_le hv]

/-- The session a Join opens. -/
def joinedSession (lease v : Byte) : Session :=
  { state := .joined, lease, counter := lease, view := if v = 0 then .live else .staged, cause := none }

/-- The state after a Join, before its messages arrive. -/
def joinedState (s : State) (p : PortId) (lease v : Byte) : State :=
  { s.setSession p (joinedSession lease v) with
    banks := banksGivenUp s p
    transfer := s.transfer.set p { cursor := none, buffer := .empty, job := none } }

theorem joinBody_opens (hjob : (s.transfer.get p).job = none) (hv : v.toNat < 2) : joinBody p [lease, v] s =
    (answer p .ok (joinPayload s p) (joinedState s p lease v)).sendAll .session
      (joinedOthers (joinedState s p lease v) p) (.peerJoined p) := by
  have hjoin : transferJoin p (s.setSession p
      { state := .joined, lease := [lease, v].getD 0 0, counter := [lease, v].getD 0 0,
        view := (if v = 0 then .live else .staged), cause := none }) = joinedState s p lease v :=
    transferJoin_eq (s := s.setSession p (joinedSession lease v)) hjob
  simp only [joinBody, habsent, reduceCtorEq, if_false, fieldByte_succ, fieldByte_zero, decodeView_of_lt hv]
  rw [hjoin]
  rfl

end

end Sys2Proof.Machine
end

section
set_option Elab.async false

open Sys2Proof Sys2Proof.Machine

/-- Settles O22: the view is read from the one byte. -/
theorem setViewSetsTheView : Obligations.SetViewSetsTheView := by
  intro p r s v h hpayload
  have hasks : asks s p r = true := (asksFor_iff.1 h).1
  rw [exec_setView h, hpayload]
  refine ⟨fun hv => congrArg Host.Outcome.next (settle_body_answer hasks ?_ (State.setSession_ports s p _)),
    fun hv => congrArg Host.Outcome.next (settle_body_refusal hasks ?_)⟩
  · simp only [setViewBody, fieldByte_zero, decodeView_of_lt hv]
  · simp only [setViewBody, fieldByte_zero, decodeView_of_le hv]

/-- Settles O16: Status in every session, Get Plan by its selector. -/
theorem planQueriesAnswer : Obligations.PlanQueriesAnswer := by
  intro p r s hasks k record batch
  refine ⟨fun hcode hpayload => ?_, fun hcode hserved => ⟨fun hpayload => ?_, fun hpayload hnone => ?_,
    fun q hpayload hsome => ?_, fun v hpayload hv => ?_⟩⟩
  · rw [exec_status hasks hcode hpayload]
    simp [statusPayload, State.quotas, k, record, batch]
  all_goals
    rw [exec_getPlan hasks hcode (by rw [hpayload]; rfl) hserved, hpayload]
    refine congrArg Host.Outcome.next (settle_body_refusal hasks ?_)
  · rfl
  · rw [getPlanBody_proposed, hnone]
  · rw [getPlanBody_proposed, hsome]
    rfl
  · exact getPlanBody_other hv

/-- Settles O17: the session opened, its answer and PEER_JOINED each the one message of its port. -/
theorem joinOpensASession : Obligations.JoinOpensASession := by
  intro p r s lease v hasks hcode hpayload
  have hlength : r.payload.length = 2 := by rw [hpayload]; rfl
  refine ⟨fun hjoined => ?_, fun habsent hv => ?_, fun habsent hv => ?_⟩
  · rw [exec_join hasks hcode hlength (by simp [hjoined])]
    exact congrArg Host.Outcome.next (settle_body_refusal hasks (joinBody_joined hjoined))
  · rw [exec_join hasks hcode hlength (by simp [habsent]), hpayload]
    exact congrArg Host.Outcome.next (settle_body_refusal hasks (joinBody_field habsent hv))
  · have hjob : (s.transfer.get p).job = none := (asks_iff.1 hasks).2.2.2.1
    have hself : p ∉ joinedOthers (joinedState s p lease v) p := by simp [mem_joinedOthers]
    obtain ⟨hstate, hanswer, hothers⟩ := settle_answer_sendAll hasks (u := joinedState s p lease v) rfl .ok
      (joinPayload s p) .session (joinedOthers (joinedState s p lease v) p) (.peerJoined p) hself (nodup_joinedOthers _ p)
    refine ⟨_, by rw [exec_join hasks hcode hlength (by simp [habsent]), hpayload, joinBody_opens habsent hjob hv],
      ?_, hanswer, fun q hq => ?_, ?_, fun q hq => ?_⟩
    · rw [hstate]
      rfl
    · rw [hothers q hq]
      have hrecord : (joinedState s p lease v).session.records.get q = s.session.records.get q := by
        exact PerPort.get_set_other _ _ hq
      have hmem : q ∈ joinedOthers (joinedState s p lease v) p ↔ s.sessionState q = .joined := by
        simp [mem_joinedOthers, hq, State.joined, State.sessionState, hrecord]
      refine if_congr ?_ rfl rfl
      rw [hmem, hrecord]
      exact ⟨fun h => h.1, fun h => ⟨h, takesEvents_of_joined (decide_eq_true h)⟩⟩
    · rw [hstate]
      simp [joinedState]
    · rw [hstate]
      exact PerPort.get_set_other _ _ hq

end

section
/-! PROOF. Votes counted, rejected and timed out (R185, R186). -/

set_option Elab.async false

namespace Sys2Proof.Machine

variable {s : State} {p : PortId} {r : Request}

@[simp] theorem mem_portsOf {v : PerPort Bool} {q : PortId} : q ∈ portsOf v ↔ v.get q = true := by
  simp [portsOf]

theorem nodup_portsOf (v : PerPort Bool) : (portsOf v).Nodup :=
  have hall : allPorts.Nodup := by decide
  hall.filter _

theorem exec_vote (h : asksFor s p r 0x06 3 = true) :
    exec (.vote p) s = .next (voteBody p r.payload s).settle :=
  congrArg Host.Outcome.next (serve_asksFor .joinedOnly (voteBody p) Act.settle h (by decide))

section
variable {decision : Byte} {digest : Half}

theorem field_digest : field (encode16 digest.toNat) 0 2 = digest.toNat := by
  have h := field_encode16 digest.isLt []
  rwa [List.append_nil] at h

theorem voteBody_field (h : 2 ≤ decision.toNat) :
    voteBody p (decision :: encode16 digest.toNat) s = answer p .field [] s := by
  simp [voteBody, h]

theorem voteCounts_eq_none (h : ∀ q, s.session.planState = .voting q →
    q.voters.get p = false ∨ q.accepted.get p = true ∨ digest ≠ planDigest q.plan) :
    voteCounts s.session.planState p digest.toNat = none := by
  cases hstate : s.session.planState with
  | steady => rfl
  | adopting q => rfl
  | voting q =>
    refine if_neg ?_
    rcases h q hstate with hvoter | haccepted | hdigest
    · simp [hvoter]
    · simp [haccepted]
    · simp [← BitVec.toNat_inj] at hdigest
      simp [hdigest]

theorem voteBody_stale (hdecision : decision.toNat < 2)
    (h : ∀ q, s.session.planState = .voting q →
      q.voters.get p = false ∨ q.accepted.get p = true ∨ digest ≠ planDigest q.plan) :
    voteBody p (decision :: encode16 digest.toNat) s = answer p .stale [] s := by
  simp [voteBody, hdecision.not_ge, field_digest, voteCounts_eq_none h]

section
variable {q : Proposal} (hstate : s.session.planState = .voting q) (hvoter : q.voters.get p = true)
variable (hpending : q.accepted.get p = false) (hdigest : digest = planDigest q.plan)
include hstate hvoter hpending hdigest

theorem voteCounts_eq_some : voteCounts s.session.planState p digest.toNat = some q := by
  simp [voteCounts, hstate, hvoter, hpending, hdigest]

theorem voteBody_accept : voteBody p (1 :: encode16 digest.toNat) s =
    answer p .ok [] (s.setPlanState (countAccept q p)) := by
  simp [voteBody, field_digest, voteCounts_eq_some hstate hvoter hpending hdigest]

theorem voteBody_reject : voteBody p (0 :: encode16 digest.toNat) s =
    (answer p .ok [] (s.setPlanState .steady)).sendAll .plan (portsOf q.voters) (.planRejected p) := by
  simp [voteBody, field_digest, voteCounts_eq_some hstate hvoter hpending hdigest]

end

end

/-- The answer to the request at the head of a queue whose response is not to be discarded. -/
theorem takeResponse_of_head {c : PortController} (hexecuting : c.executing = false) (hdiscard : c.discard = false)
    (hhead : c.requests.head? = some r) (result : Result) (payload : List Byte) : c.takeResponse result payload =
      { c with requests := c.requests.tail, outbound := c.outbound ++ [.response r.tag result payload] } := by
  obtain ⟨rest, hrequests⟩ := List.head?_eq_some_iff.1 hhead
  simp [PortController.takeResponse, hrequests, hexecuting, hdiscard]

section
variable {u : State} {l : List PortId} {result : Result} {payload : List Byte} {o : Origin} {e : Event}

theorem answer_sendAll_msgs : ((answer p result payload u).sendAll o l e).out.map Prod.snd =
    .respond p result payload :: l.map fun v => Msg.event v e := by
  simp

/-- An answer and one event to each of some ports, settled: every other port gets its event. -/
theorem settle_answer_sendAll_other {v : PortId} (hports : u.ports = s.ports) (hl : l.Nodup) (hv : v ≠ p) :
    ((answer p result payload u).sendAll o l e).settle.ports.get v =
      if v ∈ l ∧ (u.session.records.get v).takesEvents = true then (s.ports.get v).takeEvent e else s.ports.get v := by
  have hone := settle_port_of_single (a := (answer p result payload u).sendAll o l e) (by simp) (q := v)
    (m := if v ∈ l then some (.event v e) else none) (by
      rw [answer_sendAll_msgs, List.filter_cons, filter_goesTo_events hl]
      simp [Msg.goesTo, hv.symm])
  rw [← hports]
  by_cases hmem : v ∈ l
  · simpa [hmem, PortController.afterMsg] using hone
  · simpa [hmem] using hone

/-- An answer to a port and an event to each of some ports, it among them, settled: the answer and the event arrive in
either order. -/
theorem settle_answer_sendAll_self (hasks : asks s p r = true) (hports : u.ports = s.ports)
    (htakes : (u.session.records.get p).takesEvents = true) (hp : p ∈ l) (hl : l.Nodup) :
    let t := ((answer p result payload u).sendAll o l e).settle
    let answered := fun c : PortController =>
      { c with requests := c.requests.tail, outbound := c.outbound ++ [.response r.tag result payload] }
    t.ports.get p = (answered (s.ports.get p)).takeEvent e ∨ t.ports.get p = answered ((s.ports.get p).takeEvent e) := by
  intro t answered
  obtain ⟨-, hexecuting, hdiscard, -, hhead⟩ := asks_iff.1 hasks
  obtain ⟨hrequests', hexecuting', hdiscard', -, -⟩ := takeEvent_keeps (s.ports.get p) e
  have hpair := settle_port_of_pair (a := (answer p result payload u).sendAll o l e) (by simp) (q := p)
    (m := .respond p result payload) (n := .event p e) (by
      rw [answer_sendAll_msgs, List.filter_cons, filter_goesTo_events hl, if_pos hp]
      simp [Msg.goesTo])
  simp only [PortController.afterMsg, Act.sendAll_st, answer_st, htakes, if_true, hports] at hpair
  rw [takeResponse_of_head hexecuting hdiscard hhead, takeResponse_of_head (hexecuting'.trans hexecuting)
    (hdiscard'.trans hdiscard) (hrequests'.symm ▸ hhead)] at hpair
  exact hpair

end

/-! ### The time-out -/

/-- The first voter who has not accepted is the lowest-numbered. -/
theorem firstMissing_eq {q : Proposal} {missing : PortId} (hvoter : q.voters.get missing = true)
    (hpending : q.accepted.get missing = false)
    (hlowest : ∀ v, q.voters.get v = true → q.accepted.get v = false → portNumber missing ≤ portNumber v) :
    firstMissing q = missing := by
  have hnone : ∀ v, portNumber v < portNumber missing → (q.voters.get v && !q.accepted.get v) = false := fun v hv => by
    by_contra h
    simp only [Bool.not_eq_false, Bool.and_eq_true, Bool.not_eq_true'] at h
    exact absurd (hlowest v h.1 h.2) (by omega)
  have hfound : (allPorts.find? fun v => q.voters.get v && !q.accepted.get v) = some missing := by
    have h0 := hnone .h0
    have h1 := hnone .h1
    have h2 := hnone .h2
    cases missing <;> simp_all [allPorts, portNumber]
  have hfilter : (allPorts.filter q.voters.get).find? (fun v => !q.accepted.get v) = some missing := by
    rw [List.find?_filter, ← hfound]
    congr
    funext v
    simp
  rw [firstMissing, portsOf, hfilter]
  rfl

theorem exec_voteTimeout {q : Proposal} (hreset : s.resetN = true) (hstate : s.session.planState = .voting q)
    (hremaining : q.remaining = 0) : exec .voteTimeout s =
      .next ((Act.quiet (s.setPlanState .steady)).sendAll .plan (portsOf q.voters)
        (.planFailed .timeout (firstMissing q))).settle := by
  refine congrArg Host.Outcome.next ?_
  simp [hreset, takeTimeout, hstate, PlanState.timeoutDue, hremaining, timeOutVote]

/-- Events to some ports alone, settled. -/
theorem settle_sendAll {u : State} {l : List PortId} (hl : l.Nodup) (o : Origin) (e : Event) :
    let t := ((Act.quiet u).sendAll o l e).settle
    t = { u with ports := t.ports, arrivals := u.arrivals.tail } ∧
      ∀ v, t.ports.get v = if v ∈ l ∧ (u.session.records.get v).takesEvents = true then
        (u.ports.get v).takeEvent e else u.ports.get v := by
  refine ⟨settle_eq_of_no_end (a := (Act.quiet u).sendAll o l e) (by simp), fun v => ?_⟩
  have hone := settle_port_of_single (a := (Act.quiet u).sendAll o l e) (by simp) (q := v)
    (m := if v ∈ l then some (.event v e) else none) (by
      simp only [Act.sendAll_out, Act.quiet_out, List.nil_append, List.map_map]
      exact filter_goesTo_events hl v e)
  by_cases hmem : v ∈ l
  · simpa [hmem, PortController.afterMsg] using hone
  · simpa [hmem] using hone

end Sys2Proof.Machine
end

section
set_option Elab.async false

open Sys2Proof Sys2Proof.Machine

/-- Settles O20: the branches of `voteBody`, the two messages of a rejecting port in either order, and the time-out. -/
theorem votesAreCountedAndTimeOut : Obligations.VotesAreCountedAndTimeOut := by
  refine ⟨fun p r s decision digest h hpayload => ?_, fun s q missing hreset hstate hremaining hvoter hpending hlowest => ?_⟩
  · obtain ⟨hasks, hjoined, -, -⟩ := asksFor_iff.1 h
    rw [exec_vote h, hpayload]
    refine ⟨fun hfield => ?_, fun hdecision hstale => ?_, fun q hstate hvoter hpending hdigest => ⟨?_, ?_⟩⟩
    · exact congrArg Host.Outcome.next (settle_body_refusal hasks (voteBody_field hfield))
    · exact congrArg Host.Outcome.next (settle_body_refusal hasks (voteBody_stale hdecision hstale))
    · rintro rfl
      exact congrArg Host.Outcome.next (settle_body_answer hasks
        (voteBody_accept hstate hvoter hpending hdigest) rfl)
    · rintro rfl
      have htakes : (s.session.records.get p).takesEvents = true := takesEvents_of_joined (decide_eq_true hjoined)
      have hframe := settle_eq_of_no_end (a := (answer p .ok [] (s.setPlanState .steady)).sendAll .plan
        (portsOf q.voters) (.planRejected p)) (by simp)
      refine ⟨_, by rw [voteBody_reject hstate hvoter hpending hdigest], hframe, fun v hv => ?_, ?_⟩
      · rw [settle_answer_sendAll_other (u := s.setPlanState .steady) (s := s) rfl (nodup_portsOf _) hv]
        refine if_congr ?_ rfl rfl
        simp
      · exact settle_answer_sendAll_self hasks rfl htakes (mem_portsOf.2 hvoter) (nodup_portsOf _)
  · obtain ⟨hframe, hports⟩ := settle_sendAll (u := s.setPlanState .steady) (nodup_portsOf q.voters) .plan
      (.planFailed .timeout missing)
    refine ⟨_, by rw [exec_voteTimeout hreset hstate hremaining, firstMissing_eq hvoter hpending hlowest], hframe,
      fun v => ?_⟩
    rw [hports v]
    refine if_congr ?_ rfl rfl
    simp

end

section
/-! SUPPORT. What a field in range or out of range is read as. -/

set_option Elab.async false

namespace Sys2Proof.Machine

theorem below_byteOf {n : Nat} (i : Fin n) (h : n ≤ 256) : below n (byteOf i.val).toNat = some i := by
  rw [byteOf_toNat, byteOf_val_mod i h, below_val]

theorem below_eq_some {n v : Nat} {i : Fin n} (h : below n v = some i) : i.val = v := by
  unfold below at h
  split at h
  · cases h
    rfl
  · cases h

theorem within_eq_some {lo hi v n : Nat} (h : within lo hi v = some n) : n = v ∧ lo ≤ v ∧ v ≤ hi := by
  unfold within at h
  split at h
  · cases h
    exact ⟨rfl, ‹_›⟩
  · cases h

theorem decodeCopy_eq_some {v : Nat} {b : Bool} (h : decodeCopy v = some b) : v < 2 := by
  unfold decodeCopy at h
  split at h <;> simp at h ⊢

end Sys2Proof.Machine
end

section
/-! PROOF. Get Layer, Get Window, Get Extent and Palette Read. -/

set_option Elab.async false

namespace Sys2Proof.Machine

variable {s : State} {p : PortId} {r : Request}

theorem exec_getLayer (h : asksFor s p r 0x09 1 = true) :
    exec (.getLayer p) s = .next (getLayerBody p r.payload s).settle :=
  congrArg Host.Outcome.next (serve_asksFor .joinedOnly (getLayerBody p) Act.settle h (by decide))

theorem exec_getWindow (h : asksFor s p r 0x15 1 = true) :
    exec (.getWindow p) s = .next (getWindowBody p r.payload s).settle :=
  congrArg Host.Outcome.next (serve_asksFor .joinedOnly (getWindowBody p) Act.settle h (by decide))

theorem exec_getExtent (h : asksFor s p r 0x1D 1 = true) :
    exec (.getExtent p) s = .next (getExtentBody p r.payload s).settle :=
  congrArg Host.Outcome.next (serve_asksFor .joinedOnly (getExtentBody p) Act.settle h (by decide))

theorem exec_paletteRead (h : asksFor s p r 0x2B 4 = true) :
    exec (.paletteRead p) s = .next (paletteReadBody p r.payload s).settle :=
  congrArg Host.Outcome.next (serve_asksFor .joinedOnly (paletteReadBody p) Act.settle h (by decide))

/-! ### Get Layer -/

theorem answersProjection_iff {state : HeldState} {owner : PortId} :
    answersProjection s p state owner = true ↔ state = .owned ∧ owner = p ∧
      (s.session.records.get p).view = .staged ∧ (s.commit.batches.get p).state ≠ .empty := by
  simp [answersProjection, and_assoc]

section
variable {l : Fin 16} {state : HeldState} {owner : PortId} {d : Descriptor}

theorem getLayerBody_free (h : s.slot l = .free) : getLayerBody p [byteOf l.val] s = answer p .noObject [] s := by
  simp only [getLayerBody, fieldByte_zero, below_byteOf l (by decide), h]

theorem getLayerBody_live (h : s.slot l = .held state owner d) (hlive : answersProjection s p state owner = false) :
    getLayerBody p [byteOf l.val] s =
      answer p .ok ([heldStateCode state, encodePort owner, 0] ++ encodeDescriptor d) s := by
  simp only [getLayerBody, fieldByte_zero, below_byteOf l (by decide), h, hlive]
  rfl

theorem getLayerBody_projected (h : s.slot l = .held state owner d)
    (hprojected : answersProjection s p state owner = true) :
    let j := project l d (s.commit.batches.get p).edits
    getLayerBody p [byteOf l.val] s =
      answer p .ok ([heldStateCode state, encodePort owner, if j.retire then 3 else 1] ++ encodeDescriptor j.desc) s := by
  intro j
  have hflags : byteOf (true.toNat + 2 * j.retire.toNat) = if j.retire then 3 else 1 := by
    cases j.retire <;> rfl
  simp only [getLayerBody, fieldByte_zero, below_byteOf l (by decide), h, hprojected, if_true, layerPayload]
  rw [hflags]

end

/-! ### Get Window and Get Extent -/

theorem windowOptions_eq (w : WinSettings) : windowOptions w =
    byteOf ((match w.mode with | .oneShot => 0 | .continuous => 1) +
      (match w.reference with | some _ => 0 | none => 2) + (match w.scope with | .owner => 0 | .all => 4) +
      (match w.report with | .results => 0 | .faults => 8)) := by
  obtain ⟨_, _, _, _, mode, reference, _, scope, report⟩ := w
  cases mode <;> cases reference <;> cases scope <;> cases report <;> rfl

/-- The byte that says which values of a window record are present and whether it is tainted. -/
theorem windowFlags_eq (w : Window) :
    byteOf (w.expected.isSome.toNat + 2 * w.lastSignature.isSome.toNat + 4 * w.taint.toNat) =
      byteOf ((match w.expected with | some _ => 1 | none => 0) +
        (match w.lastSignature with | some _ => 2 | none => 0) + if w.taint then 4 else 0) := by
  cases w.expected <;> cases w.lastSignature <;> cases w.taint <;> rfl

/-- An absent value is sent as 000000h. -/
theorem color_getD (o : Option Color) : o.getD 0 = match o with | some v => v | none => 0 := by
  cases o <;> rfl

theorem getWindowBody_free {n : Fin 8} (h : s.window n = none) :
    getWindowBody p [byteOf n.val] s = answer p .noObject [] s := by
  simp only [getWindowBody, onWindow, fieldByte_zero, below_byteOf n (by decide), h]

theorem getWindowBody_held {n : Fin 8} {w : Window} (h : s.window n = some w) :
    getWindowBody p [byteOf n.val] s = answer p .ok (encodeWindow w) s := by
  simp [getWindowBody, onWindow, byteOf_val_mod, h]

theorem getExtentBody_free {h : Fin 32} (hfree : s.extent h = none) :
    getExtentBody p [byteOf h.val] s = answer p .noObject [] s := by
  simp only [getExtentBody, fieldByte_zero, below_byteOf h (by decide), hfree]

theorem getExtentBody_held {h : Fin 32} {e : Extent} (he : s.extent h = some e) : getExtentBody p [byteOf h.val] s =
    if mayRead e p then answer p .ok (extentPayload e) s else answer p .notGranted [] s := by
  simp only [getExtentBody, fieldByte_zero, below_byteOf h (by decide), he]

theorem mayRead_iff {e : Extent} : mayRead e p = true ↔ e.owner = some p ∨ e.grants.get p ≠ .none := by
  simp [mayRead]

/-! ### Palette Read -/

theorem decodeCopy_byteOf (b : Bool) : decodeCopy (byteOf b.toNat).toNat = some b := by
  cases b <;> rfl

theorem paletteReadBody_inRange {b : Fin 64} {shadow : Bool} {first : Fin 16} {count : Nat} (hcount : 1 ≤ count)
    (hlast : first.val + count ≤ 16) :
    paletteReadBody p [byteOf b.val, byteOf shadow.toNat, byteOf first.val, byteOf count] s =
      if shadow && !(s.block b).ownedBy p then answer p .notOwner [] s
      else answer p .ok (blockPayload (s.block b) shadow first.val count) s := by
  have hfirst : within 0 15 (byteOf first.val).toNat = some first.val := by
    rw [byteOf_toNat, byteOf_val_mod first (by decide)]
    exact within_of_le (by omega) (by omega)
  have hrange : within 1 16 (byteOf count).toNat = some count := by
    rw [byteOf_toNat, Nat.mod_eq_of_lt (by omega)]
    exact within_of_le hcount (by omega)
  simp only [paletteReadBody, fieldByte_succ, fieldByte_zero, below_byteOf b (by decide), decodeCopy_byteOf, hfirst,
    hrange, if_neg (show ¬16 < first.val + count by omega)]

theorem paletteReadBody_field {block copy first count : Byte}
    (h : 64 ≤ block.toNat ∨ 2 ≤ copy.toNat ∨ count = 0 ∨ 16 ≤ first.toNat ∨ 16 < first.toNat + count.toNat) :
    paletteReadBody p [block, copy, first, count] s = answer p .field [] s := by
  simp only [paletteReadBody, fieldByte_succ, fieldByte_zero]
  split
  · rename_i b shadow x n hblock hcopy hfirst hcount
    have hcopy := decodeCopy_eq_some hcopy
    have hblock := below_eq_some hblock
    obtain ⟨rfl, -, hfirst⟩ := within_eq_some hfirst
    obtain ⟨rfl, hcount, -⟩ := within_eq_some hcount
    have hnonzero : count ≠ 0 := by
      rintro rfl
      simp at hcount
    rw [if_pos (by have := b.isLt; simp only [hnonzero, false_or] at h; omega)]
  · rfl

end Sys2Proof.Machine
end

section
set_option Elab.async false

open Sys2Proof Sys2Proof.Machine

/-- Settles O23: each query's record, byte by byte, and its fields out of range. -/
theorem recordQueriesAnswer : Obligations.RecordQueriesAnswer := by
  intro p r s
  refine ⟨fun l h hpayload => ?_, fun n h hpayload => ?_, fun k h hpayload => ?_,
    fun b shadow first count h hcount hlast hpayload => ?_, fun v hpayload => ⟨fun hv h => ?_, fun hv h => ?_,
    fun hv h => ?_⟩, fun block copy first count h hpayload hfield => ?_⟩
  · have hasks : asks s p r = true := (asksFor_iff.1 h).1
    rw [exec_getLayer h, hpayload]
    refine ⟨fun hfree => ?_, fun state owner d hheld => ⟨fun hlive => ?_, fun hprojected => ?_⟩⟩
    · exact congrArg Host.Outcome.next (settle_body_refusal hasks (getLayerBody_free hfree))
    · exact congrArg Host.Outcome.next (settle_body_refusal hasks (getLayerBody_live hheld
        (Bool.eq_false_iff.2 fun h => hlive (answersProjection_iff.1 h))))
    · exact congrArg Host.Outcome.next (settle_body_refusal hasks (getLayerBody_projected hheld
        (answersProjection_iff.2 hprojected)))
  · have hasks : asks s p r = true := (asksFor_iff.1 h).1
    rw [exec_getWindow h, hpayload]
    refine ⟨fun hfree => ?_, fun w hheld => ?_⟩
    · exact congrArg Host.Outcome.next (settle_body_refusal hasks (getWindowBody_free hfree))
    · refine congrArg Host.Outcome.next (settle_body_refusal hasks ((getWindowBody_held hheld).trans ?_))
      simp only [encodeWindow, encodeSettings, windowOptions_eq, windowFlags_eq, color_getD, ← List.append_assoc]
      rfl
  · have hasks : asks s p r = true := (asksFor_iff.1 h).1
    rw [exec_getExtent h, hpayload]
    refine ⟨fun hfree => ?_, fun e he => ⟨fun howner hgrant => ?_, fun hmay => ?_⟩⟩
    · exact congrArg Host.Outcome.next (settle_body_refusal hasks (getExtentBody_free hfree))
    · refine congrArg Host.Outcome.next (settle_body_refusal hasks ((getExtentBody_held he).trans (if_neg ?_)))
      simp [mayRead_iff, howner, hgrant]
    · exact congrArg Host.Outcome.next (settle_body_refusal hasks ((getExtentBody_held he).trans
        (if_pos (mayRead_iff.2 hmay))))
  · have hasks : asks s p r = true := (asksFor_iff.1 h).1
    rw [exec_paletteRead h, hpayload]
    refine ⟨fun hshadow howner => ?_, fun hmay => ?_⟩
    · refine congrArg Host.Outcome.next (settle_body_refusal hasks
        ((paletteReadBody_inRange hcount hlast).trans (if_pos ?_)))
      simp [hshadow, PaletteBlock.ownedBy, howner]
    · refine congrArg Host.Outcome.next (settle_body_refusal hasks
        ((paletteReadBody_inRange hcount hlast).trans (if_neg ?_)))
      rcases hmay with h | h <;> simp [h, PaletteBlock.ownedBy]
  · rw [exec_getLayer h, hpayload]
    refine congrArg Host.Outcome.next (settle_body_refusal (asksFor_iff.1 h).1 ?_)
    simp only [getLayerBody, fieldByte_zero, below_eq_none hv]
  · rw [exec_getWindow h, hpayload]
    refine congrArg Host.Outcome.next (settle_body_refusal (asksFor_iff.1 h).1 ?_)
    simp only [getWindowBody, onWindow, fieldByte_zero, below_eq_none hv]
  · rw [exec_getExtent h, hpayload]
    refine congrArg Host.Outcome.next (settle_body_refusal (asksFor_iff.1 h).1 ?_)
    simp only [getExtentBody, fieldByte_zero, below_eq_none hv]
  · rw [exec_paletteRead h, hpayload]
    exact congrArg Host.Outcome.next (settle_body_refusal (asksFor_iff.1 h).1 (paletteReadBody_field hfield))

end

section
/-! PROOF. Stage rows (R46), and what an edit does to a projection (R53, R54). -/

set_option Elab.async false

namespace Sys2Proof.Machine

variable {s : State} {p : PortId} {r : Request} {payload : List Byte} {e : Edit}

theorem exec_stageRow {row : Byte × (PortId → Instr)} (hrow : row ∈ stageRows) (p : PortId) (s : State) :
    exec (row.2 p) s = .next (serveStage row.1 p s) := by
  simp only [stageRows, List.mem_cons, List.not_mem_nil, or_false] at hrow
  rcases hrow with rfl | rfl | rfl | rfl | rfl | rfl | rfl | rfl | rfl | rfl | rfl <;> rfl

/-- An edit is read only from bytes of a length R208 permits. -/
theorem stageLengths_of_decodeEdit (h : decodeEdit payload = some e) : stageLengths.contains payload.length = true := by
  unfold decodeEdit at h
  split at h
  case h_12 => cases h
  all_goals
    rename_i hlength
    rw [hlength]
    rfl

/-- A Stage of a JOINED port, of a permitted length and taken by the row, reaches the batch. -/
theorem exec_stage {row : Byte × (PortId → Instr)} (hrow : row ∈ stageRows) (hasks : asks s p r = true)
    (hjoined : s.sessionState p = .joined) (hcode : r.code = 0x0B)
    (hkind : ∀ b, r.payload.head? = some b → b = row.1 ∨ b.toNat = 0 ∨ 11 < b.toNat)
    (hlength : stageLengths.contains r.payload.length = true) :
    exec (row.2 p) s = .next (stageBody p r.payload s).settle := by
  rw [exec_stageRow hrow, serveStage, serve_asks _ _ _ _ hasks (stageRow_takes hcode hkind)]
  exact congrArg (fun a => Host.Outcome.next (Act.settle a)) (execute_joined .joinedOnly _ hlength hjoined)

theorem stageBody_closed (h : (s.commit.batches.get p).state = .closed) :
    stageBody p payload s = answer p .busy [] s := if_pos h

section
variable (hopen : (s.commit.batches.get p).state ≠ .closed)
include hopen

theorem stageBody_field (h : decodeEdit payload = none) : stageBody p payload s = answer p .field [] s := by
  simp [stageBody, hopen, h]

variable (hedit : decodeEdit payload = some e)
include hedit

theorem stageBody_notOwner (h : editNotOwner s p e = true) : stageBody p payload s = answer p .notOwner [] s := by
  simp [stageBody, hopen, hedit, h]

variable (howner : editNotOwner s p e = false)
include howner

theorem stageBody_full (h : 32 ≤ (s.commit.batches.get p).edits.length) :
    stageBody p payload s = answer p .full [] s := by
  simp [stageBody, hopen, hedit, howner, maxEdits, h]

theorem stageBody_appends (h : (s.commit.batches.get p).edits.length < 32) : stageBody p payload s =
    answer p .ok [byteOf ((s.commit.batches.get p).edits.length + 1)]
      (s.setBatch p { state := .opened, edits := (s.commit.batches.get p).edits ++ [e], target := none }) := by
  simp [stageBody, hopen, hedit, howner, maxEdits, h.not_ge]

end

theorem editNotOwner_eq_false_iff :
    editNotOwner s p e = false ↔ ∀ l, e.slot? = some l → (s.slot l).ownedBy p = true := by
  unfold editNotOwner
  cases e.slot? <;> simp

theorem editNotOwner_of_slot {l : Fin 16} (hslot : e.slot? = some l) (h : (s.slot l).ownedBy p = false) :
    editNotOwner s p e = true := by
  simp [editNotOwner, hslot, h]

/-- One more edit changes the projection of the slot it names, and no other. -/
theorem project_append (l : Fin 16) (base : Descriptor) (edits : List Edit) (e : Edit) :
    project l base (edits ++ [e]) =
      if e.slot? = some l then (project l base edits).take e else project l base edits := by
  by_cases h : e.slot? = some l <;> simp [project, editsFor, h]

end Sys2Proof.Machine
end

section
set_option Elab.async false

open Sys2Proof Sys2Proof.Machine

/-- Settles O24: the branches of `stageBody` in their order, and `project` one edit further. -/
theorem stageAppendsTheEdit : Obligations.StageAppendsTheEdit := by
  refine ⟨fun row p r s e hrow hasks hjoined hcode hhead hedit howned hopen hroom => ?_,
    fun row p r s hrow hasks hjoined hcode hkind hpermitted => ?_, fun l base => rfl, fun l base edits e => ?_⟩
  · rw [exec_stage hrow hasks hjoined hcode (fun b hb => .inl (Option.some.inj (hb.symm.trans hhead)))
      (stageLengths_of_decodeEdit hedit)]
    have howner : editNotOwner s p e = false := editNotOwner_eq_false_iff.2 fun l hl => by
      obtain ⟨d, hd⟩ := howned l hl
      simp [hd, Slot.ownedBy]
    exact congrArg Host.Outcome.next (settle_body_answer hasks (stageBody_appends hopen hedit howner hroom) rfl)
  · have hlength : stageLengths.contains r.payload.length = true := by
      rw [List.contains_iff_mem]
      exact of_decide_eq_true hpermitted
    rw [exec_stage hrow hasks hjoined hcode hkind hlength]
    refine ⟨fun hclosed => ?_, fun hopen => ⟨fun b hhead hunlisted => ?_, fun hnone => ?_, fun e l hedit hslot howner => ?_,
      fun e hedit howned hfull => ?_⟩⟩
    · exact congrArg Host.Outcome.next (settle_body_refusal hasks (stageBody_closed hclosed))
    · obtain ⟨rest, hrest⟩ := List.head?_eq_some_iff.1 hhead
      refine congrArg Host.Outcome.next (settle_body_refusal hasks (stageBody_field hopen ?_))
      rw [hrest, decodeEdit_unlisted hunlisted]
    · exact congrArg Host.Outcome.next (settle_body_refusal hasks (stageBody_field hopen hnone))
    · exact congrArg Host.Outcome.next (settle_body_refusal hasks (stageBody_notOwner hopen hedit
        (editNotOwner_of_slot hslot howner)))
    · exact congrArg Host.Outcome.next (settle_body_refusal hasks (stageBody_full hopen hedit
        (editNotOwner_eq_false_iff.2 howned) hfull))
  · intro j
    rw [project_append]
    cases e <;> simp [Edit.slot?, Projection.take, j]

end

section
/-! PROOF. Move Now (R71): its fields and refusals, and which windows a move meets. -/

set_option Elab.async false

namespace Sys2Proof.Machine

variable {s : State} {p : PortId} {r : Request}

theorem exec_moveNow (h : asksFor s p r 0x0E 5 = true) :
    exec (.moveNow p) s = .next (moveNowBody p r.payload s).settle :=
  congrArg Host.Outcome.next (serve_asksFor .joinedOnly (moveNowBody p) Act.settle h (by decide))

/-- The two signed fields of a Move Now. -/
theorem moveNow_fields {slot : Byte} {x y : Int} (hx : -32768 ≤ x) (hx' : x ≤ 32767) (hy : -32768 ≤ y)
    (hy' : y ≤ 32767) : fieldSigned (slot :: (encodeSigned x ++ encodeSigned y)) 1 = x ∧
      fieldSigned (slot :: (encodeSigned x ++ encodeSigned y)) 3 = y := by
  have hlast := fieldSigned_encodeSigned hy hy' []
  rw [List.append_nil] at hlast
  simp [fieldSigned_skip, fieldSigned_encodeSigned hx hx', hlast]

theorem moveNowBody_field {slot : Byte} {x y : Int} (hx : -32768 ≤ x) (hx' : x ≤ 32767) (hy : -32768 ≤ y)
    (hy' : y ≤ 32767) (h : 16 ≤ slot.toNat ∨ positionInRange x = false ∨ positionInRange y = false) :
    moveNowBody p (slot :: (encodeSigned x ++ encodeSigned y)) s = answer p .field [] s := by
  obtain ⟨hfieldX, hfieldY⟩ := moveNow_fields (slot := slot) hx hx' hy hy'
  simp only [moveNowBody, fieldByte_zero, hfieldX, hfieldY]
  rcases h with h | h | h
  · rw [below_eq_none h]
  · rw [position_of_not_inRange h]
    cases below 16 slot.toNat <;> rfl
  · rw [position_of_not_inRange h]
    cases below 16 slot.toNat <;> cases position x <;> rfl

section
variable {l : Fin 16} {x y : Int} (hx : positionInRange x = true) (hy : positionInRange y = true)
include hx hy

/-- A Move Now with its fields in range is decided by the slot. -/
theorem moveNowBody_inRange : moveNowBody p (byteOf l.val :: (encodeSigned x ++ encodeSigned y)) s =
    match s.slot l with
    | .held .owned owner d =>
      if owner ≠ p then answer p .notOwner [] s
      else if !d.movable || !d.visible then answer p .field [] s
      else if x = d.x ∧ y = d.y then answer p .ok [] s
      else answer p .ok [] (noticeMove (screenRect d) (screenRect { d with x, y })
        (s.setSlot l (.held .owned owner { d with x, y })))
    | _ => answer p .notOwner [] s := by
  have hbounds := hx
  have hbounds' := hy
  simp only [positionInRange, Bool.and_eq_true, decide_eq_true_eq] at hbounds hbounds'
  obtain ⟨hfieldX, hfieldY⟩ := moveNow_fields (slot := byteOf l.val) (x := x) (y := y) (by omega) (by omega) (by omega)
    (by omega)
  simp only [moveNowBody, fieldByte_zero, below_byteOf l (by decide), hfieldX, hfieldY, position_of_inRange hx,
    position_of_inRange hy] <;> rfl

theorem moveNowBody_notOwner (h : (s.slot l).ownedBy p = false) :
    moveNowBody p (byteOf l.val :: (encodeSigned x ++ encodeSigned y)) s = answer p .notOwner [] s := by
  rw [moveNowBody_inRange hx hy]
  split
  · rename_i owner d hslot
    rw [hslot] at h
    exact if_pos (of_decide_eq_false h)
  · rfl

section
variable {d : Descriptor} (hslot : s.slot l = .held .owned p d)
include hslot

theorem moveNowBody_fixed (h : d.movable = false ∨ d.visible = false) :
    moveNowBody p (byteOf l.val :: (encodeSigned x ++ encodeSigned y)) s = answer p .field [] s := by
  rw [moveNowBody_inRange hx hy, hslot]
  rcases h with h | h <;> simp [h]

variable (hmovable : d.movable = true) (hvisible : d.visible = true)
include hmovable hvisible

theorem moveNowBody_unchanged (h : x = d.x ∧ y = d.y) :
    moveNowBody p (byteOf l.val :: (encodeSigned x ++ encodeSigned y)) s = answer p .ok [] s := by
  rw [moveNowBody_inRange hx hy, hslot]
  simp [hmovable, hvisible, h]

theorem moveNowBody_moves (h : ¬(x = d.x ∧ y = d.y)) :
    moveNowBody p (byteOf l.val :: (encodeSigned x ++ encodeSigned y)) s =
      answer p .ok [] (noticeMove (screenRect d) (screenRect { d with x, y })
        (s.setSlot l (.held .owned p { d with x, y }))) := by
  rw [moveNowBody_inRange hx hy, hslot]
  simp [hmovable, hvisible, h]

end

end

theorem noticeMove_active {before after : Rect} (h : s.scan.phase = .active) : noticeMove before after s =
    { s with check := { s.check with
        windows := tabulate fun n => (s.window n).map (taintActive before after) } } := by
  simp only [noticeMove, h]

theorem noticeMove_blank {before after : Rect} (h : s.scan.phase = .blank) : noticeMove before after s =
    { s with check :=
        { windows := tabulate fun n => (s.window n).map (taintNext before after), moved := true } } := by
  simp only [noticeMove, h]

/-- Two rectangles that hold pixels meet when they share one. -/
theorem Rect.meets_iff {a b : Rect} (haw : 1 ≤ a.width) (hah : 1 ≤ a.height) (hbw : 1 ≤ b.width) (hbh : 1 ≤ b.height) :
    a.meets b = true ↔ ∃ px line : Int,
      (a.left ≤ px ∧ px < a.left + a.width ∧ a.top ≤ line ∧ line < a.top + a.height) ∧
        b.left ≤ px ∧ px < b.left + b.width ∧ b.top ≤ line ∧ line < b.top + b.height := by
  simp only [Rect.meets, Bool.and_eq_true, decide_eq_true_eq]
  constructor
  · intro h
    exact ⟨max a.left b.left, max a.top b.top, by omega, by omega⟩
  · rintro ⟨px, line, ha, hb⟩
    omega

end Sys2Proof.Machine
end

section
set_option Elab.async false

open Sys2Proof Sys2Proof.Machine

/-- Settles O26: the branches of `moveNowBody`, the notice in each phase, and what it is for rectangles to meet. -/
theorem moveNowMovesTheLayer : Obligations.MoveNowMovesTheLayer := by
  refine ⟨fun p r s l x y h hx hy hpayload => ?_, fun p r s slot x y h hpayload hx hx' hy hy' hfield => ?_,
    fun d => rfl, fun w => rfl, fun a b haw hah hbw hbh => Rect.meets_iff haw hah hbw hbh⟩
  · have hasks : asks s p r = true := (asksFor_iff.1 h).1
    rw [exec_moveNow h, hpayload]
    refine ⟨fun howner => ?_, fun d hslot => ⟨fun hfixed => ?_, fun hmovable hvisible => ⟨fun hsameX hsameY => ?_,
      fun hmoves => ?_⟩⟩⟩
    · exact congrArg Host.Outcome.next (settle_body_refusal hasks (moveNowBody_notOwner hx hy howner))
    · exact congrArg Host.Outcome.next (settle_body_refusal hasks (moveNowBody_fixed hx hy hslot hfixed))
    · exact congrArg Host.Outcome.next (settle_body_refusal hasks (moveNowBody_unchanged hx hy hslot hmovable hvisible
        ⟨hsameX, hsameY⟩))
    · have hbody := moveNowBody_moves hx hy hslot hmovable hvisible hmoves
      refine ⟨fun hphase => ?_, fun hphase => ?_⟩
      · rw [noticeMove_active (s := s.setSlot l (.held .owned p { d with x, y })) hphase] at hbody
        exact congrArg Host.Outcome.next (settle_body_answer hasks hbody rfl)
      · rw [noticeMove_blank (s := s.setSlot l (.held .owned p { d with x, y })) hphase] at hbody
        exact congrArg Host.Outcome.next (settle_body_answer hasks hbody rfl)
  · rw [exec_moveNow h, hpayload]
    exact congrArg Host.Outcome.next (settle_body_refusal (asksFor_iff.1 h).1
      (moveNowBody_field hx hx' hy hy' hfield))

end

section
/-! PROOF. Claim Palette, Release Palette and Palette Write (R158 to R163). -/

set_option Elab.async false

namespace Sys2Proof.Machine

variable {s : State} {p : PortId} {r : Request}

theorem exec_claimPalette (h : asksFor s p r 0x28 2 = true) :
    exec (.claimPalette p) s = .next (claimPaletteBody p r.payload s).settle :=
  congrArg Host.Outcome.next (serve_asksFor .joinedOnly (claimPaletteBody p) Act.settle h (by decide))

theorem exec_releasePalette (h : asksFor s p r 0x29 2 = true) :
    exec (.releasePalette p) s = .next (releasePaletteBody p r.payload s).settle :=
  congrArg Host.Outcome.next (serve_asksFor .joinedOnly (releasePaletteBody p) Act.settle h (by decide))

/-! ### Claims -/

/-- A run of free blocks of the part. -/
theorem blocksFree_iff {first count : Nat} (hcount : 1 ≤ count) : blocksFree s first count = true ↔
    first + count ≤ 64 ∧ ∀ i : Fin 64, first ≤ i.val → i.val < first + count → (s.block i).owner = none := by
  simp only [blocksFree, List.all_eq_true, List.mem_range]
  constructor
  · intro h
    have hinside : ∀ i, i < count → ∃ hi : first + i < 64, (s.block ⟨first + i, hi⟩).owner = none := fun i hi => by
      have hblock := h i hi
      unfold below at hblock
      split at hblock
      · rename_i b hb
        split at hb
        · cases hb
          exact ⟨‹_›, of_decide_eq_true hblock⟩
        · cases hb
      · cases hblock
    obtain ⟨hlast, -⟩ := hinside (count - 1) (by omega)
    refine ⟨by omega, fun i hlo hhi => ?_⟩
    obtain ⟨hi, hfree⟩ := hinside (i.val - first) (by omega)
    have hindex : (⟨first + (i.val - first), hi⟩ : Fin 64) = i := Fin.ext (by simp; omega)
    rwa [hindex] at hfree
  · rintro ⟨hlast, hfree⟩ i hi
    rw [below, dif_pos (by omega)]
    exact decide_eq_true (hfree _ (by simp) (by simp; omega))

theorem decodeAlignment_of {a : Nat} (h : a = 1 ∨ a = 16) : decodeAlignment (byteOf a).toNat = some a := by
  rcases h with rfl | rfl <;> rfl

theorem decodeAlignment_eq_none {w : Byte} (h : w ≠ 1 ∧ w ≠ 16) : decodeAlignment w.toNat = none := by
  unfold decodeAlignment
  split
  · exact absurd (BitVec.eq_of_toNat_eq ‹_›) h.1
  · exact absurd (BitVec.eq_of_toNat_eq ‹_›) h.2
  · rfl

theorem claimPaletteBody_field {v w : Byte} (h : v = 0 ∨ 64 < v.toNat ∨ w ≠ 1 ∧ w ≠ 16) :
    claimPaletteBody p [v, w] s = answer p .field [] s := by
  simp only [claimPaletteBody, fieldByte_zero, fieldByte_succ]
  rcases h with rfl | h | h
  · rfl
  · rw [within_eq_none (.inr h)]
  · rw [decodeAlignment_eq_none h]
    cases within 1 64 v.toNat <;> rfl

section
variable {count alignment : Nat} (hcount : 1 ≤ count) (hmax : count ≤ 64) (halign : alignment = 1 ∨ alignment = 16)
include hcount hmax halign

theorem claimPaletteBody_inRange : claimPaletteBody p [byteOf count, byteOf alignment] s =
    if (s.quotas p).blocks < blocksOwned s p + count then answer p .quota [] s
    else match freeRun s count alignment with
      | none => answer p .noSpace [] s
      | some b => answer p .ok [byteOf b.val] (claimRun p b.val count s) := by
  have hrange : within 1 64 (byteOf count).toNat = some count := by
    rw [byteOf_toNat, Nat.mod_eq_of_lt (by omega)]
    exact within_of_le hcount hmax
  simp only [claimPaletteBody, fieldByte_zero, fieldByte_succ, hrange, decodeAlignment_of halign] <;> rfl

end

/-- Where a run of the alignment fits. -/
theorem freeRun_test {count alignment : Nat} (hcount : 1 ≤ count) (b : Nat) :
    (decide (b % alignment = 0) && blocksFree s b count) = true ↔ b % alignment = 0 ∧ b + count ≤ 64 ∧
      ∀ i : Fin 64, b ≤ i.val → i.val < b + count → (s.block i).owner = none := by
  rw [Bool.and_eq_true, decide_eq_true_eq, blocksFree_iff hcount]

theorem claimRun_eq (p : PortId) (first count : Nat) (s : State) : claimRun p first count s =
    { s with palette := tabulate fun i =>
        if first ≤ i.val ∧ i.val < first + count then { s.block i with owner := some p } else s.block i } := by
  simp [claimRun, inRun]

/-! ### Releases -/

theorem releasePaletteBody_field {v w : Byte} (h : 64 ≤ v.toNat ∨ w = 0 ∨ 64 < v.toNat + w.toNat) :
    releasePaletteBody p [v, w] s = answer p .field [] s := by
  simp only [releasePaletteBody, fieldByte_zero, fieldByte_succ]
  split
  · rename_i first count hfirst hcount
    obtain ⟨rfl, -, hfirst⟩ := within_eq_some hfirst
    obtain ⟨rfl, hcount, -⟩ := within_eq_some hcount
    have hnonzero : w ≠ 0 := by
      rintro rfl
      simp at hcount
    rw [if_pos (by simp only [hnonzero, false_or] at h; omega)]
  · rfl

theorem releasePaletteBody_inRange {first : Fin 64} {count : Nat} (hcount : 1 ≤ count) (hlast : first.val + count ≤ 64) :
    releasePaletteBody p [byteOf first.val, byteOf count] s =
      if !runOwned s p first.val count then answer p .notOwner [] s
      else if runUsed s p first.val count then answer p .inUse [] s
      else answer p .ok [] (releaseRun first.val count s) := by
  have hfirst : within 0 63 (byteOf first.val).toNat = some first.val := by
    rw [byteOf_toNat, byteOf_val_mod first (by decide)]
    exact within_of_le (by omega) (by omega)
  have hrange : within 1 64 (byteOf count).toNat = some count := by
    rw [byteOf_toNat, Nat.mod_eq_of_lt (by omega)]
    exact within_of_le hcount (by omega)
  simp only [releasePaletteBody, fieldByte_zero, fieldByte_succ, hfirst, hrange,
    if_neg (show ¬64 < first.val + count by omega)]

theorem runOwned_iff {first count : Nat} : runOwned s p first count = true ↔
    ∀ i : Fin 64, first ≤ i.val ∧ i.val < first + count → (s.block i).owner = some p := by
  simp [runOwned, inRun, PaletteBlock.ownedBy, or_iff_not_imp_left]

theorem runUsed_iff {first count : Nat} (hlast : first + count ≤ 64) : runUsed s p first count = true ↔
    ∃ (l : Fin 16) (d : Descriptor) (b i : Fin 64), s.slot l = .held .owned p d ∧ d.paletteBase = some b ∧
      (first ≤ i.val ∧ i.val < first + count) ∧
      (d.format = .index4 ∧ i = b ∨ d.format = .index8 ∧ b.val ≤ i.val ∧ i.val ≤ b.val + 15) := by
  simp only [runUsed, List.any_eq_true, List.mem_finRange, true_and]
  refine exists_congr fun l => ?_
  constructor
  · intro h
    split at h
    · rename_i q d hslot
      obtain ⟨hq, hany⟩ := Bool.and_eq_true_iff.1 h
      obtain rfl := of_decide_eq_true hq
      obtain ⟨i, hi, huses⟩ := List.any_eq_true.1 hany
      rw [List.mem_range] at hi
      obtain ⟨base, hbase, hblock⟩ := usesBlock_iff (b := ⟨first + i, by omega⟩).1 huses
      exact ⟨d, base, ⟨first + i, by omega⟩, hslot, hbase, by simp; omega, hblock⟩
    · cases h
  · rintro ⟨d, b, i, hslot, hbase, hinside, hblock⟩
    rw [hslot]
    simp only [decide_true, Bool.true_and, List.any_eq_true, List.mem_range]
    refine ⟨i.val - first, by omega, ?_⟩
    rw [Nat.add_sub_cancel' hinside.1]
    exact usesBlock_iff.2 ⟨b, hbase, hblock⟩

theorem releaseRun_eq (first count : Nat) (s : State) : releaseRun first count s =
    { s with palette := tabulate fun i =>
        if first ≤ i.val ∧ i.val < first + count then
          { s.block i with owner := none, shadow := Vector.replicate 16 0, dirty := false, clearPending := true }
        else s.block i } := by
  simp [releaseRun, inRun, PaletteBlock.release]

/-! ### Writes -/

theorem permittedLength_paletteWrite {n : Nat} :
    permittedLength 0x2A n = true ↔ 5 ≤ n ∧ n ≤ 50 ∧ (n - 2) % 3 = 0 := by
  have h : permittedLength 0x2A n = (decide (5 ≤ n) && decide (n ≤ 50) && decide ((n - 2) % 3 = 0)) := rfl
  rw [h]
  simp [and_assoc]

theorem exec_paletteWrite (hasks : asks s p r = true) (hjoined : s.sessionState p = .joined) (hcode : r.code = 0x2A)
    (hlength : permittedLength 0x2A r.payload.length = true) :
    exec (.paletteWrite p) s = .next (paletteWriteBody p r.payload s).settle :=
  congrArg Host.Outcome.next (serve_asksFor .joinedOnly (paletteWriteBody p) Act.settle
    (asksFor_iff.2 ⟨hasks, hjoined, hcode, rfl⟩) ((lengthsOf_paletteWrite _).trans hlength))

theorem flatMap_encodeColor_length (colors : List Color) : (colors.flatMap encodeColor).length = 3 * colors.length := by
  simp [List.length_flatMap, Nat.mul_comm]

theorem fieldColor_flatMap (colors : List Color) {k : Nat} (h : k < colors.length) :
    fieldColor (colors.flatMap encodeColor) (3 * k) = colors[k] := by
  induction colors generalizing k with
  | nil => simp at h
  | cons c rest ih =>
    cases k with
    | zero => exact fieldColor_encodeColor c _
    | succ k =>
      rw [List.flatMap_cons, fieldColor_skip (by simp), encodeColor_length,
        show 3 * (k + 1) - 3 = 3 * k by omega, ih (by simpa using h)]
      rfl

theorem decodeColors_flatMap (a b : Byte) (colors : List Color) :
    decodeColors (a :: b :: colors.flatMap encodeColor) colors.length 2 = colors := by
  refine List.ext_getElem (by simp [decodeColors]) fun k hk hk' => ?_
  have hindex : 2 + 3 * k = 3 * k + 1 + 1 := by omega
  simp only [decodeColors, List.getElem_map, List.getElem_range, hindex, fieldColor_succ]
  exact fieldColor_flatMap colors hk'

theorem paletteWriteBody_field {block first : Byte} {rest : List Byte} (h : 64 ≤ block.toNat ∨ 16 ≤ first.toNat) :
    paletteWriteBody p (block :: first :: rest) s = answer p .field [] s := by
  simp only [paletteWriteBody, fieldByte_zero, fieldByte_succ]
  rcases h with h | h
  · rw [below_eq_none h]
  · rw [within_eq_none (.inr (by omega))]
    cases below 64 block.toNat <;> rfl

theorem paletteWriteBody_inRange (b : Fin 64) (first : Fin 16) (colors : List Color) :
    paletteWriteBody p (byteOf b.val :: byteOf first.val :: colors.flatMap encodeColor) s =
      if 16 < first.val + colors.length then answer p .field [] s
      else if !(s.block b).ownedBy p then answer p .notOwner [] s
      else answer p .ok [] (s.setBlock b
        { s.block b with shadow := writeEntries (s.block b).shadow first.val colors, dirty := true }) := by
  have hfirst : within 0 15 (byteOf first.val).toNat = some first.val := by
    rw [byteOf_toNat, byteOf_val_mod first (by decide)]
    exact within_of_le (by omega) (by omega)
  have hcount : ((byteOf b.val :: byteOf first.val :: colors.flatMap encodeColor).length - 2) / 3 = colors.length := by
    rw [List.length_cons, List.length_cons, flatMap_encodeColor_length]
    omega
  simp only [paletteWriteBody, hcount, fieldByte_zero, fieldByte_succ, below_byteOf b (by decide), hfirst,
    decodeColors_flatMap]

end Sys2Proof.Machine
end

section
set_option Elab.async false

open Sys2Proof Sys2Proof.Machine

/-- Settles O36: the branches of the two bodies, with what a run that fits, is owned or is used means. -/
theorem paletteBlocksAreClaimedAndReleased : Obligations.PaletteBlocksAreClaimedAndReleased := by
  intro p r s
  refine ⟨fun count alignment h hcount hmax halign hpayload => ?_, fun first count h hcount hlast hpayload => ?_,
    fun v w hpayload => ⟨fun h hfield => ?_, fun h hfield => ?_⟩⟩
  · intro fits
    have hasks : asks s p r = true := (asksFor_iff.1 h).1
    have hbody := claimPaletteBody_inRange (s := s) (p := p) hcount hmax halign
    rw [exec_claimPalette h, hpayload]
    refine ⟨fun hquota => ?_, fun hquota => ?_⟩
    · exact congrArg Host.Outcome.next (settle_body_refusal hasks (hbody.trans (if_pos hquota)))
    · rw [if_neg hquota.not_gt] at hbody
      refine ⟨fun hnone => ?_, fun b hfits hlowest => ?_⟩
      · have hrun : freeRun s count alignment = none := by
          rw [freeRun, lowest, List.find?_eq_none]
          exact fun b _ hb => hnone b ((freeRun_test hcount b.val).1 hb)
        rw [hrun] at hbody
        exact congrArg Host.Outcome.next (settle_body_refusal hasks hbody)
      · have hrun : freeRun s count alignment = some b :=
          lowest_eq_some_of ((freeRun_test hcount b.val).2 hfits) fun c hc =>
            Bool.eq_false_iff.2 fun htest => hlowest c hc ((freeRun_test hcount c.val).1 htest)
        rw [hrun] at hbody
        dsimp only at hbody
        rw [claimRun_eq] at hbody
        exact congrArg Host.Outcome.next (settle_body_answer hasks hbody rfl)
  · intro inside used
    have hasks : asks s p r = true := (asksFor_iff.1 h).1
    have hbody := releasePaletteBody_inRange (s := s) (p := p) hcount hlast
    rw [exec_releasePalette h, hpayload]
    refine ⟨fun ⟨i, hinside, howner⟩ => ?_, fun howned => ?_⟩
    · have hforeign : runOwned s p first.val count = false :=
        Bool.eq_false_iff.2 fun hrun => howner (runOwned_iff.1 hrun i hinside)
      exact congrArg Host.Outcome.next (settle_body_refusal hasks (hbody.trans (if_pos (by rw [hforeign]; rfl))))
    · rw [runOwned_iff.2 howned, if_neg (by decide)] at hbody
      refine ⟨fun hused => ?_, fun hunused => ?_⟩
      · exact congrArg Host.Outcome.next (settle_body_refusal hasks (hbody.trans (if_pos ((runUsed_iff hlast).2 hused))))
      · rw [if_neg fun hrun => hunused ((runUsed_iff hlast).1 hrun), releaseRun_eq] at hbody
        exact congrArg Host.Outcome.next (settle_body_answer hasks hbody rfl)
  · rw [exec_claimPalette h, hpayload]
    exact congrArg Host.Outcome.next (settle_body_refusal (asksFor_iff.1 h).1 (claimPaletteBody_field hfield))
  · rw [exec_releasePalette h, hpayload]
    exact congrArg Host.Outcome.next (settle_body_refusal (asksFor_iff.1 h).1 (releasePaletteBody_field hfield))

/-- Settles O37: the colours decoded are those encoded, and `writeEntries` puts them in the shadow. -/
theorem paletteWriteChangesTheShadow : Obligations.PaletteWriteChangesTheShadow := by
  refine ⟨fun p r s block first rest hasks hjoined hcode hlength hpayload hfield => ?_,
    fun p r s b first colors hasks hjoined hcode hsome hmax hpayload => ?_⟩
  · rw [exec_paletteWrite hasks hjoined hcode hlength, hpayload]
    exact congrArg Host.Outcome.next (settle_body_refusal hasks (paletteWriteBody_field hfield))
  · have hlength : permittedLength 0x2A r.payload.length = true := by
      rw [permittedLength_paletteWrite, hpayload, List.length_cons, List.length_cons, flatMap_encodeColor_length]
      omega
    have hbody := paletteWriteBody_inRange (s := s) (p := p) b first colors
    rw [exec_paletteWrite hasks hjoined hcode hlength, hpayload]
    refine ⟨fun hrange => ?_, fun hrange howner => ?_, fun hrange howner => ?_⟩
    · exact congrArg Host.Outcome.next (settle_body_refusal hasks (hbody.trans (if_pos hrange)))
    · rw [if_neg hrange.not_gt] at hbody
      exact congrArg Host.Outcome.next (settle_body_refusal hasks (hbody.trans
        (if_pos (by simp [PaletteBlock.ownedBy, howner]))))
    · rw [if_neg hrange.not_gt, if_neg (by simp [PaletteBlock.ownedBy, howner])] at hbody
      exact ⟨writeEntries (s.block b).shadow first.val colors, fun i => tabulate_get _ i,
        congrArg Host.Outcome.next (settle_body_answer hasks hbody rfl)⟩

end

section
/-! PROOF. Define Window, Change Window, Arm, Disarm and Free Window (R76 to R82). -/

set_option Elab.async false

namespace Sys2Proof.Machine

variable {s : State} {p : PortId} {r : Request} {payload : List Byte}

theorem exec_defineWindow (h : asksFor s p r 0x10 13 = true) :
    exec (.defineWindow p) s = .next (defineWindowBody p r.payload s).settle :=
  congrArg Host.Outcome.next (serve_asksFor .joinedOnly (defineWindowBody p) Act.settle h (by decide))

theorem exec_changeWindow (h : asksFor s p r 0x11 14 = true) :
    exec (.changeWindow p) s = .next (changeWindowBody p r.payload s).settle :=
  congrArg Host.Outcome.next (serve_asksFor .joinedOnly (changeWindowBody p) Act.settle h (by decide))

theorem exec_arm (h : asksFor s p r 0x12 1 = true) : exec (.arm p) s = .next (armBody p r.payload s).settle :=
  congrArg Host.Outcome.next (serve_asksFor .joinedOnly (armBody p) Act.settle h (by decide))

theorem exec_disarm (h : asksFor s p r 0x13 1 = true) : exec (.disarm p) s = .next (disarmBody p r.payload s).settle :=
  congrArg Host.Outcome.next (serve_asksFor .joinedOnly (disarmBody p) Act.settle h (by decide))

theorem exec_freeWindow (h : asksFor s p r 0x14 1 = true) :
    exec (.freeWindow p) s = .next (freeWindowBody p r.payload s).settle :=
  congrArg Host.Outcome.next (serve_asksFor .joinedOnly (freeWindowBody p) Act.settle h (by decide))

/-! ### Settings -/

/-- The rectangle lies in the active area of the plan in force. -/
def InsidePlan (s : State) (w : WinSettings) : Prop :=
  w.x + w.w ≤ s.session.plan.timing.width ∧ w.y + w.h ≤ s.session.plan.timing.height

theorem insideActive_iff {w : WinSettings} : insideActive s.session.plan.timing w = true ↔ InsidePlan s w := by
  simp [insideActive, InsidePlan]

theorem settingsAt_unread {i : Nat} (h : decodeSettings payload i = none) : settingsAt s payload i = none := by
  simp [settingsAt, h]

theorem settingsAt_outside {i : Nat} {w : WinSettings} (h : decodeSettings payload i = some w) (hout : ¬InsidePlan s w) :
    settingsAt s payload i = none := by
  simp [settingsAt, h, insideActive_iff, hout]

theorem settingsAt_inside {i : Nat} {w : WinSettings} (h : decodeSettings payload i = some w) (hin : InsidePlan s w) :
    settingsAt s payload i = some w := by
  simp [settingsAt, h, insideActive_iff, hin]

/-! ### Define -/

theorem defineWindowBody_field (h : settingsAt s payload 0 = none) :
    defineWindowBody p payload s = answer p .field [] s := by
  simp [defineWindowBody, h]

section
variable {w : WinSettings} (h : settingsAt s payload 0 = some w)
include h

theorem defineWindowBody_quota (hquota : (s.quotas p).windows ≤ windowsOwned s p) :
    defineWindowBody p payload s = answer p .quota [] s := by
  simp [defineWindowBody, h, hquota]

theorem defineWindowBody_defines {n : Fin 8} (hquota : windowsOwned s p < (s.quotas p).windows)
    (hfree : s.window n = none) (hlowest : ∀ m, m < n → s.window m ≠ none) :
    defineWindowBody p payload s = answer p .ok [byteOf n.val] (s.setWindow n (some (newWindow s p w))) := by
  have hn : lowest (fun m => (s.window m).isNone) = some n :=
    lowest_eq_some_of (by simp [hfree]) fun m hm => by simpa [Option.isSome_iff_ne_none] using hlowest m hm
  simp [defineWindowBody, h, hquota.not_ge, hn]

end

/-! ### Requests that name a window -/

section
variable {body : Fin 8 → Window → Act} {ownerOnly : Bool} {v : Byte} {rest : List Byte} {n : Fin 8} {w : Window}

theorem onWindow_field (h : 8 ≤ v.toNat) : onWindow p ownerOnly (v :: rest) s body = answer p .field [] s := by
  simp only [onWindow, fieldByte_zero, below_eq_none h]

theorem onWindow_noObject (h : s.window n = none) :
    onWindow p ownerOnly (byteOf n.val :: rest) s body = answer p .noObject [] s := by
  simp only [onWindow, fieldByte_zero, below_byteOf n (by decide), h]

theorem onWindow_notOwner (h : s.window n = some w) (howner : w.owner ≠ p) :
    onWindow p true (byteOf n.val :: rest) s body = answer p .notOwner [] s := by
  simp [onWindow, byteOf_val_mod, h, howner]

theorem onWindow_owned (h : s.window n = some w) (howner : w.owner = p) :
    onWindow p ownerOnly (byteOf n.val :: rest) s body = body n w := by
  simp [onWindow, byteOf_val_mod, h, howner]

end

theorem taking_of {w : Window} (h : w.state = .armed ∨ w.state = .running) : w.taking = true := by
  simpa [Window.taking] using h

theorem not_taking_of {w : Window} (h : w.state = .idle ∨ w.state = .halted) : w.taking = false := by
  rcases h with h | h <;> simp [Window.taking, h]

section
variable {n : Fin 8} {w : Window} {rest : List Byte} (hwindow : s.window n = some w) (howner : w.owner = p)
include hwindow howner

theorem changeWindowBody_busy (h : w.taking = true) :
    changeWindowBody p (byteOf n.val :: rest) s = answer p .busy [] s := by
  rw [changeWindowBody, onWindow_owned hwindow howner, if_pos h]

theorem changeWindowBody_field (h : w.taking = false) (hsettings : settingsAt s (byteOf n.val :: rest) 1 = none) :
    changeWindowBody p (byteOf n.val :: rest) s = answer p .field [] s := by
  rw [changeWindowBody, onWindow_owned hwindow howner, h]
  simp [hsettings]

theorem changeWindowBody_changes (h : w.taking = false) {settings : WinSettings}
    (hsettings : settingsAt s (byteOf n.val :: rest) 1 = some settings) :
    changeWindowBody p (byteOf n.val :: rest) s = answer p .ok [] (s.setWindow n (some
      { w with settings, expected := settings.reference, nextTaint := w.nextTaint || moveRecorded s })) := by
  rw [changeWindowBody, onWindow_owned hwindow howner, h]
  simp [hsettings]

theorem armBody_owned : armBody p (byteOf n.val :: rest) s = if w.taking then answer p .busy [] s
    else answer p .ok [] (s.setWindow n (some { w with state := .armed, consecutive := 0 })) :=
  onWindow_owned hwindow howner

theorem disarmBody_owned : disarmBody p (byteOf n.val :: rest) s = if w.taking then answer p .ok []
      (s.setWindow n (some { w with state := .idle, register := signatureStart, taint := false }))
    else answer p .ok [] s :=
  onWindow_owned hwindow howner

theorem freeWindowBody_owned : freeWindowBody p (byteOf n.val :: rest) s = answer p .ok [] (s.setWindow n none) :=
  onWindow_owned hwindow howner

end

/-- The five rows that name a window begin with the checks of `onWindow`; Get Window alone asks for no owner. -/
theorem exec_onWindow {row : Byte × (PortId → Instr)}
    (hrow : row ∈ [((0x11 : Byte), Instr.changeWindow), (0x12, .arm), (0x13, .disarm), (0x14, .freeWindow),
      (0x15, .getWindow)])
    (hasks : asks s p r = true) (hjoined : s.sessionState p = .joined) (hcode : r.code = row.1)
    (hlength : permittedLength row.1 r.payload.length = true) :
    ∃ ownerOnly body, (row.1 ≠ 0x15 → ownerOnly = true) ∧
      exec (row.2 p) s = .next (onWindow p ownerOnly r.payload s body).settle := by
  have hfor : asksFor s p r row.1 r.payload.length = true := asksFor_iff.2 ⟨hasks, hjoined, hcode, rfl⟩
  simp only [List.mem_cons, List.not_mem_nil, or_false] at hrow
  rcases hrow with rfl | rfl | rfl | rfl | rfl <;>
    obtain hlength : r.payload.length = _ := of_decide_eq_true hlength <;> rw [hlength] at hfor
  · exact ⟨true, _, fun _ => rfl, exec_changeWindow hfor⟩
  · exact ⟨true, _, fun _ => rfl, exec_arm hfor⟩
  · exact ⟨true, _, fun _ => rfl, exec_disarm hfor⟩
  · exact ⟨true, _, fun _ => rfl, exec_freeWindow hfor⟩
  · exact ⟨false, _, fun h => absurd rfl h, exec_getWindow hfor⟩

end Sys2Proof.Machine
end

section
set_option Elab.async false

open Sys2Proof Sys2Proof.Machine

/-- Settles O27: the settings read and inside the panel, and the branches of the two bodies. -/
theorem windowsAreDefinedAndChanged : Obligations.WindowsAreDefinedAndChanged := by
  refine ⟨fun p r s h => ⟨fun hnone => ?_, fun w hsettings => ?_⟩, fun p r s n w rest h hpayload hwindow howner =>
    ⟨fun htaking => ?_, fun hidle hfield => ?_, fun hidle v hsettings hwidth hheight => ?_⟩⟩
  · rw [exec_defineWindow h]
    exact congrArg Host.Outcome.next (settle_body_refusal (asksFor_iff.1 h).1
      (defineWindowBody_field (settingsAt_unread hnone)))
  · intro inside
    have hasks : asks s p r = true := (asksFor_iff.1 h).1
    rw [exec_defineWindow h]
    refine ⟨fun hout => ?_, fun hin hquota => ?_, fun n hin hquota hfree hlowest => ?_⟩
    · exact congrArg Host.Outcome.next (settle_body_refusal hasks
        (defineWindowBody_field (settingsAt_outside hsettings hout)))
    · exact congrArg Host.Outcome.next (settle_body_refusal hasks
        (defineWindowBody_quota (settingsAt_inside hsettings hin) hquota))
    · exact congrArg Host.Outcome.next (settle_body_answer hasks
        (defineWindowBody_defines (settingsAt_inside hsettings hin) hquota hfree hlowest) rfl)
  · rw [exec_changeWindow h, hpayload]
    exact congrArg Host.Outcome.next (settle_body_refusal (asksFor_iff.1 h).1
      (changeWindowBody_busy hwindow howner (taking_of htaking)))
  · have hnone : settingsAt s r.payload 1 = none := by
      rcases hfield with hnone | ⟨v, hsettings, hout⟩
      · exact settingsAt_unread hnone
      · exact settingsAt_outside hsettings hout
    rw [exec_changeWindow h]
    rw [hpayload] at hnone ⊢
    exact congrArg Host.Outcome.next (settle_body_refusal (asksFor_iff.1 h).1
      (changeWindowBody_field hwindow howner (not_taking_of hidle) hnone))
  · rw [exec_changeWindow h]
    rw [hpayload] at hsettings ⊢
    exact congrArg Host.Outcome.next (settle_body_answer (asksFor_iff.1 h).1 (changeWindowBody_changes hwindow howner
      (not_taking_of hidle) (settingsAt_inside hsettings ⟨hwidth, hheight⟩)) rfl)

/-- Settles O28: each body on the port's own window, and the refusals of `onWindow` for all five rows. -/
theorem windowsAreArmedDisarmedAndFreed : Obligations.WindowsAreArmedDisarmedAndFreed := by
  refine ⟨fun p r s n w hasks hjoined hpayload hwindow howner => ⟨fun hcode => ?_, fun hcode => ?_, fun hcode => ?_⟩,
    fun p r s v rest hasks hjoined hpayload row hrow hcode hlength => ?_⟩
  · have hbody := armBody_owned (rest := []) hwindow howner
    rw [exec_arm (asksFor_iff.2 ⟨hasks, hjoined, hcode, by rw [hpayload]; rfl⟩), hpayload]
    refine ⟨fun hidle => ?_, fun htaking => ?_⟩
    · exact congrArg Host.Outcome.next (settle_body_answer hasks
        (hbody.trans (if_neg (by simp [not_taking_of hidle]))) rfl)
    · exact congrArg Host.Outcome.next (settle_body_refusal hasks (hbody.trans (if_pos (taking_of htaking))))
  · have hbody := disarmBody_owned (rest := []) hwindow howner
    rw [exec_disarm (asksFor_iff.2 ⟨hasks, hjoined, hcode, by rw [hpayload]; rfl⟩), hpayload]
    refine ⟨fun htaking => ?_, fun hidle => ?_⟩
    · exact congrArg Host.Outcome.next (settle_body_answer hasks (hbody.trans (if_pos (taking_of htaking))) rfl)
    · exact congrArg Host.Outcome.next (settle_body_refusal hasks
        (hbody.trans (if_neg (by simp [not_taking_of hidle]))))
  · rw [exec_freeWindow (asksFor_iff.2 ⟨hasks, hjoined, hcode, by rw [hpayload]; rfl⟩), hpayload]
    exact congrArg Host.Outcome.next (settle_body_answer hasks (freeWindowBody_owned hwindow howner) rfl)
  · obtain ⟨ownerOnly, body, honly, hexec⟩ := exec_onWindow hrow hasks hjoined hcode hlength
    rw [hexec, hpayload]
    refine ⟨fun hv => ?_, fun n hn hfree => ?_, fun n w hn hwindow howner hrow => ?_⟩
    · exact congrArg Host.Outcome.next (settle_body_refusal hasks (onWindow_field hv))
    · rw [hn]
      exact congrArg Host.Outcome.next (settle_body_refusal hasks (onWindow_noObject hfree))
    · rw [hn, honly hrow]
      exact congrArg Host.Outcome.next (settle_body_refusal hasks (onWindow_notOwner hwindow howner))

end

section
/-! SUPPORT. A transfer unit as a request or its last completion leaves it (R141 to R152). -/

set_option Elab.async false

namespace Sys2Proof.Machine

variable {s : State} {p : PortId} {r : Request}

/-- A request whose body is an answer alone, after which the idle banks decide. -/
theorem settleAndArbitrate_refusal {a : Act} {result : Result} {payload : List Byte} (hasks : asks s p r = true)
    (ha : a = answer p result payload s) : a.settleAndArbitrate = arbitrate (s.answered p r.tag result payload) :=
  congrArg arbitrate (settle_body_refusal hasks ha)

/-- A transfer begun with its own accesses: the buffer is emptied and a fetch into it given up. -/
theorem startJob_emptyBuffer (hjob : (s.transfer.get p).job = none) (j : Job) : startJob p j (emptyBuffer p s) =
    { s with
      ports := s.ports.set p { s.ports.get p with executing := true }
      transfer := s.transfer.set p { cursor := (s.transfer.get p).cursor, buffer := .empty, job := some j }
      banks := banksGivenUp s p } := by
  simp [startJob, emptyBuffer_eq hjob, State.setTransfer]

/-- A Read answered whose request is not detached: the cursor advances and read-ahead starts there. -/
theorem finishRead_attached {j : Job} {bytes : List Byte} {c : Cursor} {e : Extent} (hattached : j.detached = false)
    (hcursor : (s.transfer.get p).cursor = some c) (hextent : s.extent c.handle = some e) :
    finishRead p j bytes s = (Act.quiet
      { s with
        banks := banksGivenUp s p
        transfer := s.transfer.set p
          { cursor := some { c with offset := c.offset + bytes.length }
            buffer := readAheadFrom c.handle e (c.offset + bytes.length), job := none } }).send
      .response (.respond p (damagedIf j.damage) bytes) := by
  have hdropped : ((dropJob p s).transfer.get p).job = none := by simp [dropJob, State.setTransfer]
  have hbanks : banksGivenUp (dropJob p s) p = banksGivenUp s p := by
    simp [banksGivenUp, dropJob, State.setTransfer]
  have hadvanced : advanceCursor p bytes.length (emptyBuffer p (dropJob p s)) =
      { s with
        banks := banksGivenUp s p
        transfer := s.transfer.set p
          { cursor := some { c with offset := c.offset + bytes.length }, buffer := .empty, job := none } } := by
    unfold advanceCursor
    rw [emptyBuffer_eq hdropped, hbanks]
    simp [dropJob, State.setTransfer, hcursor]
  have hahead := startReadAhead_eq (s := advanceCursor p bytes.length (emptyBuffer p (dropJob p s))) (p := p)
    (c := { c with offset := c.offset + bytes.length }) (e := e) (by simp [hadvanced]) (by simp [hadvanced])
    (by rw [hadvanced]; exact hextent)
  unfold finishRead
  simp only [hattached, Bool.false_eq_true, if_false, hahead]
  simp [hadvanced, State.setTransfer]

end Sys2Proof.Machine
end

section
/-! PROOF. Seek, Write, Update and Read (R142 to R149). -/

set_option Elab.async false

namespace Sys2Proof.Machine

variable {s : State} {p : PortId} {r : Request}

theorem exec_seek (h : asksFor s p r 0x20 4 = true) : exec (.seek p) s = .next (seekBody p r.payload s).settle :=
  congrArg Host.Outcome.next (serve_asksFor .joinedOnly (seekBody p) Act.settle h (by decide))

theorem exec_write (hasks : asks s p r = true) (hjoined : s.sessionState p = .joined) (hcode : r.code = 0x21)
    (hmin : 1 ≤ r.payload.length) (hmax : r.payload.length ≤ 64) :
    exec (.write p) s = .next (writeBody p r.payload s).settleAndArbitrate := by
  have hlength : (lengthsOf 0x21).contains r.payload.length = true := by
    have hlengths : lengthsOf 0x21 = lengthsFromTo 1 64 := by decide +kernel
    rw [hlengths, List.contains_iff_mem, mem_lengthsFromTo]
    exact ⟨hmin, hmax⟩
  exact congrArg Host.Outcome.next (serve_asksFor .joinedOnly (writeBody p) Act.settleAndArbitrate
    (asksFor_iff.2 ⟨hasks, hjoined, hcode, rfl⟩) hlength)

theorem exec_update (h : asksFor s p r 0x23 5 = true) :
    exec (.update p) s = .next (updateBody p r.payload s).settleAndArbitrate :=
  congrArg Host.Outcome.next (serve_asksFor .joinedOnly (updateBody p) Act.settleAndArbitrate h (by decide))

theorem exec_read (h : asksFor s p r 0x22 1 = true) :
    exec (.read p) s = .next (readBody p r.payload s).settleAndArbitrate :=
  congrArg Host.Outcome.next (serve_asksFor .joinedOnly (readBody p) Act.settleAndArbitrate h (by decide))

/-! ### Seek -/

theorem field_encode24_end {n : Nat} (h : n < 16777216) : field (encode24 n) 0 3 = n := by
  have hfield := field_encode24 h []
  rwa [List.append_nil] at hfield

theorem seekBody_field {handle : Byte} {offset : Nat} (hmax : offset < 16777216)
    (h : 32 ≤ handle.toNat ∨ 2097151 < offset) : seekBody p (handle :: encode24 offset) s = answer p .field [] s := by
  simp only [seekBody, fieldByte_zero, field_succ, field_encode24_end hmax]
  rcases h with h | h
  · rw [below_eq_none h]
  · rw [within_eq_none (.inr h)]
    cases below 32 handle.toNat <;> rfl

theorem seekBody_inRange {h : Fin 32} {offset : Nat} (hmax : offset ≤ 2097151) :
    seekBody p (byteOf h.val :: encode24 offset) s = match s.extent h with
      | none => answer p .noObject [] s
      | some e =>
        if !mayRead e p then answer p .notGranted [] s
        else if e.size ≤ offset then answer p .range [] s
        else answer p .ok [] (setCursor p ⟨h, offset⟩ s) := by
  simp only [seekBody, fieldByte_zero, field_succ, field_encode24_end (show offset < 16777216 by omega),
    below_byteOf h (by decide), within_of_le (Nat.zero_le _) hmax] <;> rfl

theorem setCursor_eq (hjob : (s.transfer.get p).job = none) (c : Cursor) : setCursor p c s =
    { s with
      banks := banksGivenUp s p
      transfer := s.transfer.set p { cursor := some c, buffer := .empty, job := none } } := by
  simp [setCursor, emptyBuffer_eq hjob, State.setTransfer]

/-! ### Write and Update -/

theorem cursorExtent_none (h : (s.transfer.get p).cursor = none) : cursorExtent s p = none := by
  simp [cursorExtent, h]

theorem cursorExtent_some {c : Cursor} {e : Extent} (hcursor : (s.transfer.get p).cursor = some c)
    (hextent : s.extent c.handle = some e) : cursorExtent s p = some (c, e) := by
  simp [cursorExtent, hcursor, hextent]

/-- The transfer a Write begins. -/
def writeJob (c : Cursor) (e : Extent) (payload : List Byte) : Job :=
  { kind := .write payload.length, handle := c.handle, offset := c.offset,
    parts := writeParts e.firstRow c.offset payload, damage := false, detached := false }

/-- The transfer an Update begins. -/
def updateJob (c : Cursor) (e : Extent) (op : UpdateOp) (operand : Word) : Job :=
  { kind := .update, handle := c.handle, offset := c.offset, damage := false, detached := false,
    parts := [{ row := e.firstRow + c.offset / 512, status := .waiting,
                kind := .update (c.offset % 512) op operand }] }

theorem writeBody_noObject {payload : List Byte} (h : (s.transfer.get p).cursor = none) :
    writeBody p payload s = answer p .noObject [] s := by
  simp [writeBody, cursorExtent_none h]

/-- A transfer begun settles to the state of `startJob_emptyBuffer`, and the idle banks decide. -/
theorem settleAndArbitrate_startJob {a : Act} {j : Job} {c : Cursor} (hasks : asks s p r = true)
    (hcursor : (s.transfer.get p).cursor = some c) (ha : a = .quiet (startJob p j (emptyBuffer p s))) :
    a.settleAndArbitrate = arbitrate { s with
      ports := s.ports.set p { s.ports.get p with executing := true }
      transfer := s.transfer.set p { cursor := some c, buffer := .empty, job := some j }
      banks := banksGivenUp s p, arrivals := s.arrivals.tail } := by
  obtain ⟨-, -, -, hjob, -⟩ := asks_iff.1 hasks
  rw [ha, Act.settleAndArbitrate, settle_quiet, startJob_emptyBuffer hjob, hcursor]

section
variable {c : Cursor} {e : Extent} (hcursor : (s.transfer.get p).cursor = some c)
variable (hextent : s.extent c.handle = some e)
include hcursor hextent

theorem writeBody_eq (payload : List Byte) : writeBody p payload s =
    if e.owner ≠ some p then answer p .notOwner [] s
    else if e.state = .clearing then answer p .busy [] s
    else if e.rows * 512 < c.offset + payload.length then answer p .range [] s
    else .quiet (startJob p (writeJob c e payload) (emptyBuffer p s)) := by
  simp only [writeBody, cursorExtent_some hcursor hextent]
  rfl

theorem updateBody_eq {payload : List Byte} {op : UpdateOp} {operand : Word}
    (hop : decodeUpdateOp (fieldByte payload 0) = some op) (hoperand : BitVec.ofNat 32 (field payload 1 4) = operand) :
    updateBody p payload s =
      if e.owner ≠ some p then answer p .notOwner [] s
      else if c.offset % 4 ≠ 0 then answer p .field [] s
      else if e.state = .clearing then answer p .busy [] s
      else if e.rows * 512 < c.offset + 4 then answer p .range [] s
      else .quiet (startJob p (updateJob c e op operand) (emptyBuffer p s)) := by
  simp only [updateBody, hop, cursorExtent_some hcursor hextent, hoperand]
  rfl

end

theorem decodeUpdateOp_eq_none {n : Nat} (h : 3 ≤ n) : decodeUpdateOp n = none := by
  obtain ⟨m, rfl⟩ : ∃ m, n = m + 3 := ⟨n - 3, by omega⟩
  rfl

theorem updateBody_field {payload : List Byte} (h : decodeUpdateOp (fieldByte payload 0) = none) :
    updateBody p payload s = answer p .field [] s := by
  simp [updateBody, h]

theorem updateBody_noObject {payload : List Byte} {op : UpdateOp}
    (hop : decodeUpdateOp (fieldByte payload 0) = some op) (h : (s.transfer.get p).cursor = none) :
    updateBody p payload s = answer p .noObject [] s := by
  simp [updateBody, hop, cursorExtent_none h]

/-- An operand reads back from its four bytes. -/
theorem ofNat_field_encode32 (w : Word) : BitVec.ofNat 32 (field (encode32 w.toNat) 0 4) = w := by
  have hw := w.isLt
  refine BitVec.eq_of_toNat_eq ?_
  simp only [field, encode32, decodeNat, List.drop_zero, List.take_succ_cons, List.take_zero, List.foldl_cons,
    List.foldl_nil, byteOf_toNat, BitVec.toNat_ofNat]
  omega

/-! ### Read -/

/-- The transfer a Read begins that presents its own accesses. -/
def readJob (c : Cursor) (e : Extent) (n : Nat) : Job :=
  { kind := .read n, handle := c.handle, offset := c.offset, parts := readParts e.firstRow c.offset n,
    damage := decide (e.state = .damaged), detached := false }

theorem readBody_field {v : Byte} (h : v = 0 ∨ 64 < v.toNat) : readBody p [v] s = answer p .field [] s := by
  have hrange : within 1 64 v.toNat = none := within_eq_none (by rcases h with rfl | h <;> [exact .inl (by decide); exact .inr h])
  simp only [readBody, fieldByte_zero, hrange]

section
variable {v : Byte} (hmin : 1 ≤ v.toNat) (hmax : v.toNat ≤ 64)
include hmin hmax

theorem readBody_noObject (h : (s.transfer.get p).cursor = none) : readBody p [v] s = answer p .noObject [] s := by
  simp only [readBody, fieldByte_zero, within_of_le hmin hmax, cursorExtent_none h]

variable {c : Cursor} {e : Extent} (hcursor : (s.transfer.get p).cursor = some c)
variable (hextent : s.extent c.handle = some e)
include hcursor hextent

theorem readBody_eq : readBody p [v] s =
    if !mayRead e p then answer p .notGranted [] s
    else if e.rows * 512 < c.offset + v.toNat then answer p .range [] s
    else match bufferUse (s.transfer.get p).buffer c v.toNat with
      | .serve bytes => finishRead p { readJob c e v.toNat with damage := false } bytes s
      | .wait => .quiet (startJob p { readJob c e v.toNat with kind := .readBuffered v.toNat, parts := [] } s)
      | .none => .quiet (startJob p (readJob c e v.toNat) (emptyBuffer p s)) := by
  simp only [readBody, fieldByte_zero, within_of_le hmin hmax, cursorExtent_some hcursor hextent] <;> rfl

end

theorem covers_iff {start len offset n : Nat} :
    covers start len offset n = true ↔ start ≤ offset ∧ offset + n ≤ start + len := by
  simp [covers]

section
variable {buffer : ReadAhead} {c : Cursor} {n start len : Nat}

theorem bufferUse_valid {bytes : List Byte} (hbuffer : buffer = .valid c.handle start bytes)
    (h : start ≤ c.offset ∧ c.offset + n ≤ start + bytes.length) :
    bufferUse buffer c n = .serve ((bytes.drop (c.offset - start)).take n) := by
  rw [hbuffer]
  exact if_pos ⟨rfl, covers_iff.2 h⟩

theorem bufferUse_fetching {parts : List Part} (hbuffer : buffer = .fetching c.handle start len parts)
    (h : start ≤ c.offset ∧ c.offset + n ≤ start + len) : bufferUse buffer c n = .wait := by
  rw [hbuffer]
  exact if_pos ⟨rfl, covers_iff.2 h⟩

theorem bufferUse_none
    (hvalid : ∀ start bytes, buffer = .valid c.handle start bytes →
      ¬(start ≤ c.offset ∧ c.offset + n ≤ start + bytes.length))
    (hfetching : ∀ start len parts, buffer = .fetching c.handle start len parts →
      ¬(start ≤ c.offset ∧ c.offset + n ≤ start + len)) : bufferUse buffer c n = .none := by
  cases hbuffer : buffer with
  | empty => rfl
  | fetching h start len parts =>
    refine if_neg fun ⟨hhandle, hcovers⟩ => ?_
    exact hfetching start len parts (hhandle ▸ hbuffer) (covers_iff.1 hcovers)
  | valid h start bytes =>
    refine if_neg fun ⟨hhandle, hcovers⟩ => ?_
    exact hvalid start bytes (hhandle ▸ hbuffer) (covers_iff.1 hcovers)

end

end Sys2Proof.Machine
end

section
set_option Elab.async false

open Sys2Proof Sys2Proof.Machine

/-- Settles O32: the handle and offset read, and the branches of `seekBody`. -/
theorem seekSetsTheCursor : Obligations.SeekSetsTheCursor := by
  refine ⟨fun p r s handle offset h hmax hpayload hfield => ?_, fun p r s k offset h hmax hpayload =>
    ⟨fun hnone => ?_, fun e he => ⟨fun howner hgrant => ?_, fun hmay => ⟨fun hrange => ?_, fun hinside => ?_⟩⟩⟩⟩
  · rw [exec_seek h, hpayload]
    exact congrArg Host.Outcome.next (settle_body_refusal (asksFor_iff.1 h).1 (seekBody_field hmax hfield))
  all_goals
    obtain ⟨hasks, -, -, -⟩ := asksFor_iff.1 h
    have hbody := seekBody_inRange (s := s) (p := p) (h := k) hmax
    rw [exec_seek h, hpayload]
  · exact congrArg Host.Outcome.next (settle_body_refusal hasks (hbody.trans (by rw [hnone])))
  · have hmay : mayRead e p = false := Bool.eq_false_iff.2 fun h => by simp [mayRead_iff, howner, hgrant] at h
    exact congrArg Host.Outcome.next (settle_body_refusal hasks (hbody.trans (by rw [he]; simp [hmay])))
  · exact congrArg Host.Outcome.next (settle_body_refusal hasks (hbody.trans (by
      rw [he]
      simp [mayRead_iff.2 hmay, Extent.size, rowBytes, hrange])))
  · obtain ⟨-, -, -, hjob, -⟩ := asks_iff.1 hasks
    refine ⟨_, congrArg Host.Outcome.next (settle_body_answer (result := .ok) (payload := [])
      (u := setCursor p ⟨k, offset⟩ s) hasks (hbody.trans (by
      rw [he]
      simp [mayRead_iff.2 hmay, Extent.size, rowBytes, hinside.not_ge])) (by rw [setCursor_eq hjob])), ?_⟩
    rw [setCursor_eq hjob]
    rfl

/-- Settles O33: the branches of the two bodies, and the transfer they begin. -/
theorem writeAndUpdatePresentTheirAccesses : Obligations.WriteAndUpdatePresentTheirAccesses := by
  intro p r s hasks hjoined
  refine ⟨fun hcode hmin hmax => ?_, fun hcode => ?_⟩
  · intro refused
    have hexec := exec_write hasks hjoined hcode hmin hmax
    refine ⟨fun hnone => ?_, fun c e hcursor hextent => ?_⟩
    · exact hexec.trans (congrArg Host.Outcome.next (settleAndArbitrate_refusal hasks (writeBody_noObject hnone)))
    · have hbody := writeBody_eq hcursor hextent r.payload
      refine ⟨fun howner => ?_, fun howner hclearing => ?_, fun howner hclearing hrange => ?_,
        fun howner hclearing hinside => ?_⟩
      · exact hexec.trans (congrArg Host.Outcome.next (settleAndArbitrate_refusal hasks (hbody.trans (if_pos howner))))
      · exact hexec.trans (congrArg Host.Outcome.next (settleAndArbitrate_refusal hasks (hbody.trans (by
          simp [howner, hclearing]))))
      · exact hexec.trans (congrArg Host.Outcome.next (settleAndArbitrate_refusal hasks (hbody.trans (by
          simp [howner, hclearing, hrange]))))
      · exact hexec.trans (congrArg Host.Outcome.next (settleAndArbitrate_startJob (j := writeJob c e r.payload) hasks
          hcursor (hbody.trans (by simp [howner, hclearing, hinside.not_gt]))))
  · intro refused
    refine ⟨fun v operand hpayload hv => ?_, fun op operand hpayload => ?_⟩
    · have hexec := exec_update (asksFor_iff.2 ⟨hasks, hjoined, hcode, by rw [hpayload]; rfl⟩)
      refine hexec.trans (congrArg Host.Outcome.next (settleAndArbitrate_refusal hasks (updateBody_field ?_)))
      rw [hpayload, fieldByte_zero, decodeUpdateOp_eq_none hv]
    · have hexec := exec_update (asksFor_iff.2 ⟨hasks, hjoined, hcode, by rw [hpayload]; rfl⟩)
      have hop : decodeUpdateOp (fieldByte r.payload 0) = some op := by
        rw [hpayload, fieldByte_zero]
        cases op <;> rfl
      have hoperand : BitVec.ofNat 32 (field r.payload 1 4) = operand := by
        rw [hpayload]
        exact ofNat_field_encode32 operand
      refine ⟨fun hnone => ?_, fun c e hcursor hextent => ?_⟩
      · exact hexec.trans (congrArg Host.Outcome.next (settleAndArbitrate_refusal hasks (updateBody_noObject hop hnone)))
      · have hbody := updateBody_eq hcursor hextent hop hoperand
        refine ⟨fun howner => ?_, fun howner halign => ?_, fun howner halign hclearing => ?_,
          fun howner halign hclearing hrange => ?_, fun howner halign hclearing hinside => ?_⟩
        · exact hexec.trans (congrArg Host.Outcome.next (settleAndArbitrate_refusal hasks (hbody.trans (if_pos howner))))
        · exact hexec.trans (congrArg Host.Outcome.next (settleAndArbitrate_refusal hasks (hbody.trans (by
            simp [howner, halign]))))
        · exact hexec.trans (congrArg Host.Outcome.next (settleAndArbitrate_refusal hasks (hbody.trans (by
            simp [howner, halign, hclearing]))))
        · exact hexec.trans (congrArg Host.Outcome.next (settleAndArbitrate_refusal hasks (hbody.trans (by
            simp [howner, halign, hclearing, hrange]))))
        · exact hexec.trans (congrArg Host.Outcome.next (settleAndArbitrate_startJob (j := updateJob c e op operand)
            hasks hcursor (hbody.trans (by simp [howner, halign, hclearing, hinside.not_gt]))))

/-- Settles O34: the branches of `readBody`, by what the buffer holds. -/
theorem readTakesTheBufferOrTheBanks : Obligations.ReadTakesTheBufferOrTheBanks := by
  refine ⟨fun p r s v h hpayload => ?_, fun p r s c e n h hmin hpayload hcursor hextent hmay => ?_⟩
  · intro refused
    obtain ⟨hasks, -, -, -⟩ := asksFor_iff.1 h
    have hexec := exec_read h
    rw [hpayload] at hexec
    refine ⟨fun hv => ?_, fun hmin hmax => ⟨fun hnone => ?_, fun c e hcursor hextent howner hgrant => ?_⟩⟩
    · exact hexec.trans (congrArg Host.Outcome.next (settleAndArbitrate_refusal hasks (readBody_field hv)))
    · exact hexec.trans (congrArg Host.Outcome.next (settleAndArbitrate_refusal hasks (readBody_noObject hmin hmax hnone)))
    · have hmay : mayRead e p = false := Bool.eq_false_iff.2 fun h => by simp [mayRead_iff, howner, hgrant] at h
      exact hexec.trans (congrArg Host.Outcome.next (settleAndArbitrate_refusal hasks
        ((readBody_eq hmin hmax hcursor hextent).trans (by simp [hmay]))))
  · obtain ⟨hasks, -, -, -⟩ := asksFor_iff.1 h
    obtain ⟨-, -, -, hjob, -⟩ := asks_iff.1 hasks
    have hvalue : (byteOf n.val).toNat = n.val := by rw [byteOf_toNat, Nat.mod_eq_of_lt (by omega)]
    have hexec := exec_read h
    have hbody := readBody_eq (v := byteOf n.val) (by omega) (by omega) hcursor hextent
    rw [hpayload] at hexec
    rw [hvalue] at hbody
    refine ⟨fun hrange => ?_, fun hinside => ?_⟩
    · exact hexec.trans (congrArg Host.Outcome.next (settleAndArbitrate_refusal hasks (hbody.trans (by
        simp [mayRead_iff.2 hmay, hrange]))))
    · rw [mayRead_iff.2 hmay, if_neg (by decide), if_neg hinside.not_gt] at hbody
      refine ⟨fun start bytes hbuffer hstart hlast => ?_, fun start len parts hbuffer hstart hlast => ?_,
        fun hvalid hfetching => ?_⟩
      · have hbanks : banksGivenUp s p = s.banks := by simp [banksGivenUp, hbuffer]
        have hread : ((bytes.drop (c.offset - start)).take n.val).length = n.val := by simp; omega
        rw [bufferUse_valid hbuffer ⟨hstart, hlast⟩] at hbody
        dsimp only at hbody
        rw [finishRead_attached rfl hcursor hextent, hbanks, hread] at hbody
        exact hexec.trans (congrArg (fun u => Host.Outcome.next (arbitrate u)) (settle_body_answer hasks hbody rfl))
      · rw [bufferUse_fetching hbuffer ⟨hstart, hlast⟩] at hbody
        refine hexec.trans (congrArg Host.Outcome.next ?_)
        rw [hbody, Act.settleAndArbitrate, settle_quiet]
        rfl
      · rw [bufferUse_none hvalid hfetching] at hbody
        exact hexec.trans (congrArg Host.Outcome.next (settleAndArbitrate_startJob (j := readJob c e n.val) hasks hcursor
          hbody))

end

section
/-! PROOF. How extent bytes divide at row boundaries (R99, R130). -/

set_option Elab.async false

namespace Sys2Proof.Machine

/-- The bytes of the first row a division takes. -/
def firstRowBytes (start len : Nat) : Nat := min len (512 - start % 512)

/-- A division takes the bytes up to the end of the first row, and divides the rest from the next row on. -/
theorem splitBytes_cons (firstRow start : Nat) {len : Nat} (h : len ≠ 0) : splitBytes firstRow start len =
    (firstRow + start / 512, start % 512, firstRowBytes start len) ::
      splitBytes firstRow (start + firstRowBytes start len) (len - firstRowBytes start len) := by
  by_cases hone : len ≤ 512 - start % 512
  · have hn : firstRowBytes start len = len := Nat.min_eq_left hone
    have hrow : (start + len - 1) / 512 = start / 512 := by omega
    simp only [hn, splitBytes, h, if_false, Nat.sub_self, if_true, rowBytes, hrow]
    simp
    omega
  · have hn : firstRowBytes start len = 512 - start % 512 := Nat.min_eq_right (by omega)
    have hrest : len - (512 - start % 512) ≠ 0 := by omega
    obtain ⟨k, hk⟩ : ∃ k, (start + len - 1) / 512 - start / 512 = k + 1 :=
      ⟨(start + len - 1) / 512 - start / 512 - 1, by omega⟩
    have hlast : start + (512 - start % 512) + (len - (512 - start % 512)) - 1 = start + len - 1 := by omega
    have hnext : (start + (512 - start % 512)) / 512 = start / 512 + 1 := by omega
    have haligned : (start + (512 - start % 512)) % 512 = 0 := by omega
    have hcount : (start + len - 1) / 512 - (start / 512 + 1) = k := by omega
    simp only [hn, splitBytes, h, hrest, if_false, rowBytes, hk, hlast, hnext, haligned, hcount, ite_self]
    rw [List.range_succ_eq_map, List.map_cons, List.map_map]
    refine congrArg₂ List.cons ?_ (List.map_congr_left fun i _ => ?_)
    · simp [show ¬start / 512 = (start + len - 1) / 512 by omega]
    · have hindex : start / 512 + i.succ = start / 512 + 1 + i := by omega
      simp only [Function.comp, Nat.succ_ne_zero, if_false, hindex]

/-- The rest of a division is shorter. -/
theorem firstRowBytes_pos (start : Nat) {len : Nat} (h : len ≠ 0) : 0 < firstRowBytes start len := by
  unfold firstRowBytes
  omega

theorem firstRowBytes_le (start len : Nat) : firstRowBytes start len ≤ len := Nat.min_le_left _ _

/-- A byte of the first row. -/
theorem byte_of_firstRow {start len i : Nat} (h : i < firstRowBytes start len) :
    (start + i) / 512 = start / 512 ∧ (start + i) % 512 = start % 512 + i := by
  unfold firstRowBytes at h
  omega

/-- The rows of a division rise. -/
theorem splitBytes_rows_rise (firstRow start len : Nat) :
    (splitBytes firstRow start len).Pairwise fun t u => t.1 < u.1 := by
  unfold splitBytes
  split
  · exact .nil
  · exact List.Pairwise.map _ (fun i j (h : i < j) => by simpa using h) List.pairwise_lt_range

/-! ### Reads -/

theorem readParts_cons (firstRow start : Nat) {len : Nat} (h : len ≠ 0) : readParts firstRow start len =
    { row := firstRow + start / 512, kind := .read (start % 512) (firstRowBytes start len), status := .waiting } ::
      readParts firstRow (start + firstRowBytes start len) (len - firstRowBytes start len) := by
  rw [readParts, splitBytes_cons firstRow start h]
  rfl

/-- The bytes a part reads, each with its row. -/
def Part.readsBytes (t : Part) : List (Nat × Nat) :=
  match t.kind with
  | .read lo n => (List.range n).map fun i => (t.row, lo + i)
  | _ => []

theorem readParts_readsBytes (firstRow start len : Nat) : (readParts firstRow start len).flatMap Part.readsBytes =
    (List.range len).map fun i => (firstRow + (start + i) / 512, (start + i) % 512) := by
  induction len using Nat.strongRecOn generalizing start with
  | ind len ih =>
    by_cases h : len = 0
    · subst h
      rfl
    · obtain ⟨n, hn⟩ : ∃ n, n = firstRowBytes start len := ⟨_, rfl⟩
      have hpos := firstRowBytes_pos start h
      have hle := firstRowBytes_le start len
      rw [readParts_cons firstRow start h, List.flatMap_cons, ih _ (by omega), ← hn]
      have hrange : List.range len = List.range n ++ (List.range (len - n)).map (n + ·) := by
        rw [← List.range_add]
        congr 1
        omega
      rw [hrange, List.map_append, List.map_map]
      refine congrArg₂ (· ++ ·) (List.map_congr_left fun i hi => ?_) (List.map_congr_left fun i _ => ?_)
      · obtain ⟨hrow, hbyte⟩ := byte_of_firstRow (hn ▸ List.mem_range.1 hi)
        rw [hrow, hbyte]
      · rw [Function.comp, Nat.add_assoc]

/-! ### Writes -/

/-- One step of `writeParts`: the part of a row takes its bytes of the data. -/
def writeStep (acc : List Part × List Byte) (t : Nat × Nat × Nat) : List Part × List Byte :=
  (acc.1 ++ [{ row := t.1, kind := .write t.2.1 (acc.2.take t.2.2), status := .waiting }], acc.2.drop t.2.2)

theorem writeParts_eq (firstRow start : Nat) (data : List Byte) :
    writeParts firstRow start data = ((splitBytes firstRow start data.length).foldl writeStep ([], data)).1 := rfl

/-- The parts before do not matter to those that follow. -/
theorem foldl_writeStep (l : List (Nat × Nat × Nat)) (parts : List Part) (data : List Byte) :
    (l.foldl writeStep (parts, data)).1 = parts ++ (l.foldl writeStep ([], data)).1 := by
  induction l generalizing parts data with
  | nil => simp
  | cons t rest ih =>
    rw [List.foldl_cons, List.foldl_cons, writeStep, writeStep, ih, ih ([] ++ _), List.append_assoc, List.nil_append]

theorem writeParts_cons (firstRow start : Nat) {data : List Byte} (h : data.length ≠ 0) :
    writeParts firstRow start data =
      { row := firstRow + start / 512, kind := .write (start % 512) (data.take (firstRowBytes start data.length)),
        status := .waiting } ::
        writeParts firstRow (start + firstRowBytes start data.length) (data.drop (firstRowBytes start data.length)) := by
  rw [writeParts_eq, splitBytes_cons firstRow start h, List.foldl_cons, writeStep, foldl_writeStep, writeParts_eq,
    List.length_drop]
  rfl

/-- The bytes a part writes, each with its row and place. -/
def Part.writesBytes (t : Part) : List (Nat × Nat × Byte) :=
  match t.kind with
  | .write lo bytes => bytes.zipIdx.map fun b => (t.row, lo + b.2, b.1)
  | _ => []

theorem writeParts_writesBytes (firstRow start : Nat) (data : List Byte) :
    (writeParts firstRow start data).flatMap Part.writesBytes =
      data.zipIdx.map fun b => (firstRow + (start + b.2) / 512, (start + b.2) % 512, b.1) := by
  induction hlen : data.length using Nat.strongRecOn generalizing start data with
  | ind len ih =>
    by_cases h : data.length = 0
    · rw [List.length_eq_zero_iff] at h
      subst h
      rfl
    · obtain ⟨n, hn⟩ : ∃ n, n = firstRowBytes start data.length := ⟨_, rfl⟩
      have hpos := firstRowBytes_pos start h
      have hle := firstRowBytes_le start data.length
      rw [writeParts_cons firstRow start h, List.flatMap_cons, ← hn, ih (data.length - n) (by omega) _ _ (by simp)]
      have htaken : (data.take n).length = n := by simp; omega
      have hsplit : data.zipIdx = (data.take n).zipIdx ++ (data.drop n).zipIdx n := by
        conv_lhs => rw [← List.take_append_drop n data]
        rw [List.zipIdx_append, htaken, Nat.zero_add]
      rw [hsplit, List.map_append, List.zipIdx_eq_map_add (i := n), List.map_map]
      refine congrArg₂ (· ++ ·) (List.map_congr_left fun b hb => ?_) (List.map_congr_left fun b _ => ?_)
      · have hi : b.2 < n := htaken ▸ List.snd_lt_of_mem_zipIdx hb
        obtain ⟨hrow, hbyte⟩ := byte_of_firstRow (hn ▸ hi)
        rw [hrow, hbyte]
      · simp only [Function.comp, Nat.add_assoc]

theorem foldl_writeStep_rows (l : List (Nat × Nat × Nat)) (data : List Byte) :
    (l.foldl writeStep ([], data)).1.map Part.row = l.map Prod.fst := by
  induction l generalizing data with
  | nil => rfl
  | cons t rest ih => rw [List.foldl_cons, writeStep, foldl_writeStep, List.map_append, ih]; rfl

theorem foldl_writeStep_waiting (l : List (Nat × Nat × Nat)) (data : List Byte) :
    ∀ t ∈ (l.foldl writeStep ([], data)).1, t.status = .waiting := by
  induction l generalizing data with
  | nil => simp
  | cons t rest ih =>
    rw [List.foldl_cons, writeStep, foldl_writeStep]
    intro u hu
    rcases List.mem_append.1 hu with hu | hu
    · rw [List.nil_append, List.mem_singleton] at hu
      rw [hu]
    · exact ih _ u hu

end Sys2Proof.Machine
end

section
set_option Elab.async false

open Sys2Proof Sys2Proof.Machine

/-- Settles O35: by induction on the bytes left, one row at a time. -/
theorem workDividesAtRowBoundaries : Obligations.WorkDividesAtRowBoundaries := by
  refine ⟨fun firstRow start len => readParts_readsBytes firstRow start len,
    fun firstRow start data => writeParts_writesBytes firstRow start data, fun parts firstRow start len data hparts => ?_⟩
  rw [← List.pairwise_map (f := Part.row) (R := fun a b => a < b)]
  rcases hparts with rfl | rfl
  · refine ⟨?_, fun t ht => ?_⟩
    · have hrows : (readParts firstRow start len).map Part.row = (splitBytes firstRow start len).map Prod.fst := by
        rw [readParts, List.map_map]
        rfl
      rw [hrows, List.pairwise_map]
      exact splitBytes_rows_rise firstRow start len
    · obtain ⟨_, -, rfl⟩ := List.mem_map.1 ht
      rfl
  · rw [writeParts_eq]
    refine ⟨?_, foldl_writeStep_waiting _ _⟩
    rw [foldl_writeStep_rows, List.pairwise_map]
    exact splitBytes_rows_rise firstRow start data.length

end

section
/-! PROOF. Transactions of a port: the frame fixed at the start, its delivery and the request taken at the end
(R189 to R195). -/

set_option Elab.async false

namespace Sys2Proof.Machine

variable {s : State} {p : PortId}

/-! ### The start -/

theorem exec_transactionStart (hready : ready s = true) (hsel : (s.ports.get p).selHigh = true) :
    exec (.transactionStart p) s = .next (startTransaction p s) := by
  refine congrArg Host.Outcome.next ?_
  have hdue : takeDue s = s := by
    simp only [ready, Bool.and_eq_true] at hready
    exact takeDue_of_noneDue hready.2
  rw [if_pos hsel, if_pos (ready_resetN hready), hdue]

/-- The fields of an outbound frame between its status byte and its check byte. -/
def headBody : List Frame → List Byte
  | [] => [0, 0, 0, 0]
  | .response tag result payload :: _ => [1, tag, resultCode result, byteOf payload.length] ++ payload
  | .event e n :: _ =>
    [2, eventCode e, byteOf n, byteOf (eventSubject e ++ eventFields e).length] ++ (eventSubject e ++ eventFields e)

theorem newTransaction_eq (c : PortController) (session : SessionState) (voting : Bool) :
    newTransaction c session voting =
      { fixed := if c.outbound = [] then .idle else .head
        bytes := statusByte c session voting :: headBody c.outbound ++
          [crc8 (statusByte c session voting :: headBody c.outbound)]
        shown := c.flags
        since := { overrun := false, frameError := false, eventsDropped := false } } := by
  unfold newTransaction
  cases hout : c.outbound with
  | nil => rfl
  | cons f rest =>
    cases f with
    | response tag result payload => rfl
    | event e n =>
      simp only [frameBody, headBody, List.append_assoc, reduceCtorEq, if_false]
      rfl

/-- The bits of the status byte, for its Boolean parts. -/
theorem statusBits (more overrun frameError dropped draining joined voting : Bool) :
    let b := byteOf (128 * more.toNat + 64 * overrun.toNat + 32 * frameError.toNat + 16 * dropped.toNat +
      4 * (joined.toNat + 2 * draining.toNat) + 2 * voting.toNat)
    b.getLsbD 7 = more ∧ b.getLsbD 6 = overrun ∧ b.getLsbD 5 = frameError ∧ b.getLsbD 4 = dropped ∧
      b.getLsbD 3 = draining ∧ b.getLsbD 2 = joined ∧ b.getLsbD 1 = voting ∧ b.getLsbD 0 = false := by
  revert more overrun frameError dropped draining joined voting
  decide

theorem sessionCode_eq (state : SessionState) :
    sessionCode state = (decide (state = .joined)).toNat + 2 * (decide (state = .draining)).toNat := by
  cases state <;> rfl

/-! ### The end -/

/-- The controller when its transaction has ended and its frame is delivered or not. -/
def PortController.endWith (c : PortController) (t : Transaction) (clocked : Nat) : PortController :=
  if t.bytes.length ≤ clocked then deliverFrame t { c with selHigh := true, transaction := none }
  else { c with selHigh := true, transaction := none }

theorem exec_transactionEnd {t : Transaction} (inbound : List Byte) (stray : Nat) (hready : ready s = true)
    (hsel : (s.ports.get p).selHigh = false) (ht : (s.ports.get p).transaction = some t) :
    exec (.transactionEnd p inbound stray) s =
      .next (takeInbound p inbound (s.setPort p ((s.ports.get p).endWith t inbound.length))) := by
  refine congrArg Host.Outcome.next ?_
  have hdue : takeDue s = s := by
    simp only [ready, Bool.and_eq_true] at hready
    exact takeDue_of_noneDue hready.2
  simp [hsel, ready_resetN hready, hdue, ht, endTransaction, Transaction.delivered, PortController.endWith]

theorem judgeInbound_idle {inbound : List Byte} (h : inbound = [] ∨ inbound.head? = some 0xFF) :
    judgeInbound inbound = .nothing ∨ judgeInbound inbound = .poll := by
  rcases h with rfl | h
  · exact .inl rfl
  · obtain ⟨rest, rfl⟩ := List.head?_eq_some_iff.1 h
    exact .inr rfl

theorem takeInbound_idle {inbound : List Byte} (h : inbound = [] ∨ inbound.head? = some 0xFF) (u : State) :
    takeInbound p inbound u = u := by
  rcases judgeInbound_idle h with h | h <;> simp only [takeInbound, h]

theorem clearShown_eq (now shown since : StickyFlags) : clearShown now shown since =
    { overrun := now.overrun && (!shown.overrun || since.overrun)
      frameError := now.frameError && (!shown.frameError || since.frameError)
      eventsDropped := now.eventsDropped && (!shown.eventsDropped || since.eventsDropped) } := by
  simp [clearShown, Bool.not_and]

theorem credit_eq_zero_iff {c : PortController} :
    Machine.credit c = 0 ↔ 4 ≤ c.requests.length + c.outbound.countP Frame.isResponse := by
  rw [Machine.credit]
  omega

section
variable {inbound : List Byte} {c : PortController}

theorem takeInbound_bad (h : judgeInbound inbound = .bad) : takeInbound p inbound (s.setPort p c) =
    { s with ports := s.ports.set p { c with flags := { c.flags with frameError := true } } } := by
  simp [takeInbound, h, State.setPort, setFrameError]

variable {r : Request} (h : judgeInbound inbound = .request r)
include h

theorem takeInbound_accepted (hcredit : c.requests.length + c.outbound.countP Frame.isResponse < 4) :
    takeInbound p inbound (s.setPort p c) =
      { s with
        ports := s.ports.set p { c with requests := c.requests ++ [r] }
        session := if (s.session.records.get p).state = .joined then
            { s.session with
              records := s.session.records.set p
                { s.session.records.get p with counter := (s.session.records.get p).lease } }
          else s.session } := by
  have hfree : ¬Machine.credit c = 0 := by rw [credit_eq_zero_iff]; omega
  simp only [takeInbound, h, acceptRequest, State.setPort, PerPort.get_set_same, hfree, if_false, reloadLease,
    PerPort.set_set_same, State.setSession]
  split <;> rfl

theorem takeInbound_overrun (hcredit : 4 ≤ c.requests.length + c.outbound.countP Frame.isResponse) :
    takeInbound p inbound (s.setPort p c) =
      { s with ports := s.ports.set p { c with flags := { c.flags with overrun := true } } } := by
  simp [takeInbound, h, acceptRequest, State.setPort, credit_eq_zero_iff.2 hcredit, setOverrun]

end

/-! ### The inbound bytes -/

theorem judgeInbound_cons (first : Byte) (rest : List Byte) : judgeInbound (first :: rest) =
    if first.toNat = 0xFF then .poll
    else if 0x51 ≤ first.toNat then .bad
    else if (first :: rest).length < first.toNat + 4 then .bad
    else if (first :: rest).getD (first.toNat + 3) 0 ≠ crc8 ((first :: rest).take (first.toNat + 3)) then .bad
    else .request { tag := (first :: rest).getD 1 0, code := (first :: rest).getD 2 0,
                    payload := ((first :: rest).drop 3).take first.toNat } := rfl

/-- A request frame is judged by its check byte, whatever follows it. -/
theorem judgeInbound_request (r : Request) (check : Byte) (extra : List Byte) (h : r.payload.length ≤ 80) :
    let front := byteOf r.payload.length :: r.tag :: r.code :: r.payload
    judgeInbound (front ++ check :: extra) = if check ≠ crc8 front then .bad else .request r := by
  intro front
  have hlen : (byteOf r.payload.length).toNat = r.payload.length := by
    rw [byteOf_toNat, Nat.mod_eq_of_lt (by omega)]
  have hfront : front.length = r.payload.length + 3 := rfl
  have hcheck : (front ++ check :: extra).getD (r.payload.length + 3) 0 = check := by
    rw [← hfront]
    simp [List.getD_eq_getElem?_getD]
  have htake : (front ++ check :: extra).take (r.payload.length + 3) = front := by
    rw [← hfront]
    exact List.take_left
  have hjudge := judgeInbound_cons (byteOf r.payload.length) (r.tag :: r.code :: (r.payload ++ check :: extra))
  have hbytes : byteOf r.payload.length :: r.tag :: r.code :: (r.payload ++ check :: extra) = front ++ check :: extra :=
    rfl
  rw [hbytes, hlen, hcheck, htake, if_neg (by omega), if_neg (by omega),
    if_neg (by simp only [List.length_append, List.length_cons, hfront]; omega)] at hjudge
  rw [hjudge]
  refine if_congr Iff.rfl rfl ?_
  have hpayload : ((front ++ check :: extra).drop 3).take r.payload.length = r.payload := List.take_left
  rw [hpayload]
  rfl

end Sys2Proof.Machine
end

section
set_option Elab.async false

open Sys2Proof Sys2Proof.Machine

/-- Settles O9: the transaction `newTransaction` forms, and the bits of `statusByte`. -/
theorem transactionStartFixesTheFrame : Obligations.TransactionStartFixesTheFrame := by
  refine ⟨fun p s hready hsel => ?_, fun c state voting => ?_⟩
  · intro c status body
    rw [exec_transactionStart hready hsel]
    have hbody : body = headBody c.outbound := by
      simp only [body]
      split <;> rename_i hout <;> rw [hout] <;> rfl
    simp only [startTransaction, newTransaction_eq, hbody]
    rfl
  · intro b
    have hbits := statusBits (moreFlag c) c.flags.overrun c.flags.frameError c.flags.eventsDropped
      (decide (state = .draining)) (decide (state = .joined)) voting
    rw [← sessionCode_eq] at hbits
    exact hbits

/-- Settles O10: a Poll or no byte takes no request, so that what is left is the delivery. -/
theorem transactionEndDelivers : Obligations.TransactionEndDelivers := by
  intro p s t inbound stray hready hsel ht hidle c ended cleared after
  rw [exec_transactionEnd inbound stray hready hsel ht, takeInbound_idle hidle]
  have hafter : (s.ports.get p).endWith t inbound.length = after := by
    simp only [PortController.endWith, after]
    refine if_congr Iff.rfl ?_ rfl
    cases hfixed : t.fixed <;> simp only [deliverFrame, hfixed, clearShown_eq] <;> rfl
  rw [hafter]
  rfl

/-- Settles O11: the judgement of the inbound bytes, and what each makes of the controller. -/
theorem transactionEndTakesTheRequest : Obligations.TransactionEndTakesTheRequest := by
  refine ⟨fun p s t inbound stray hready hsel ht => ?_, rfl, fun first rest => ⟨fun hpoll => ?_, fun hlo hhi => ?_,
    fun hlen hshort => ?_⟩, fun r check extra hmax => ?_⟩
  · intro ended c session
    have hexec := exec_transactionEnd inbound stray hready hsel ht
    refine ⟨fun hbad => ?_, fun r hrequest => ⟨fun hcredit => ?_, fun hcredit => ?_⟩⟩
    · exact hexec.trans (congrArg Host.Outcome.next (takeInbound_bad hbad))
    · exact hexec.trans (congrArg Host.Outcome.next (takeInbound_accepted hrequest hcredit))
    · exact hexec.trans (congrArg Host.Outcome.next (takeInbound_overrun hrequest hcredit))
  · rw [judgeInbound_cons, if_pos (by rw [hpoll]; rfl)]
  · rw [judgeInbound_cons, if_neg (by omega), if_pos hlo]
  · rw [judgeInbound_cons, if_neg (by omega), if_neg (by omega), if_pos hshort]
  · intro front
    have hjudge := judgeInbound_request r check extra hmax
    exact ⟨fun hcheck => hjudge.trans (if_neg (not_not_intro hcheck)), fun hcheck => hjudge.trans (if_pos hcheck)⟩

end

section
/-! PROOF. Events queued, coalesced and dropped (R199 to R201). -/

set_option Elab.async false

namespace Sys2Proof.Machine

/-! ### Which events are of one subject -/

theorem encodePort_inj {p q : PortId} : encodePort p = encodePort q ↔ p = q := by
  cases p <;> cases q <;> decide

theorem byteOf_val_inj {n : Nat} (h : n ≤ 256) {i j : Fin n} : byteOf i.val = byteOf j.val ↔ i = j := by
  refine ⟨fun heq => Fin.ext ?_, fun heq => by rw [heq]⟩
  have hmod := congrArg BitVec.toNat heq
  rwa [byteOf_toNat, byteOf_toNat, byteOf_val_mod i h, byteOf_val_mod j h] at hmod

theorem encode16_inj {d e : Half} : encode16 d.toNat = encode16 e.toNat ↔ d = e := by
  refine ⟨fun heq => BitVec.eq_of_toNat_eq ?_, fun heq => by rw [heq]⟩
  have hfield := congrArg decodeNat heq
  rwa [decodeNat_encode16 d.isLt, decodeNat_encode16 e.isLt] at hfield

theorem singleton_encodePort_inj {p q : PortId} : p = q ↔ [encodePort p] = [encodePort q] := by
  rw [List.singleton_inj, encodePort_inj]

theorem singleton_byteOf_inj {n : Nat} (h : n ≤ 256) {i j : Fin n} : i = j ↔ [byteOf i.val] = [byteOf j.val] := by
  rw [List.singleton_inj, byteOf_val_inj h]

theorem decide_iff_same_code {P : Prop} [Decidable P] {c : Byte} {x y : List Byte} (h : P ↔ x = y) :
    decide P = true ↔ c = c ∧ x = y := by
  rw [decide_eq_true_iff, h, and_iff_right rfl]

theorem batchApplied_sameSubject (a : PortId) (b : Half) (c : Nat) (e : Event) :
    (Event.batchApplied a b c).sameSubject e = true ↔
      eventCode (Event.batchApplied a b c) = eventCode e ∧ eventSubject (Event.batchApplied a b c) = eventSubject e := by
  cases e
  case batchApplied => exact decide_iff_same_code singleton_encodePort_inj
  all_goals exact iff_of_false Bool.noConfusion fun hboth => Bool.noConfusion (beq_iff_eq.2 hboth.1)

theorem batchRejected_sameSubject (a : PortId) (b : RejectItem) (c : Nat) (d : RejectReason) (e : Event) :
    (Event.batchRejected a b c d).sameSubject e = true ↔
      eventCode (Event.batchRejected a b c d) = eventCode e ∧ eventSubject (Event.batchRejected a b c d) = eventSubject e := by
  cases e
  case batchRejected => exact decide_iff_same_code singleton_encodePort_inj
  all_goals exact iff_of_false Bool.noConfusion fun hboth => Bool.noConfusion (beq_iff_eq.2 hboth.1)

theorem clearDone_sameSubject (a : Fin 32) (e : Event) :
    (Event.clearDone a).sameSubject e = true ↔
      eventCode (Event.clearDone a) = eventCode e ∧ eventSubject (Event.clearDone a) = eventSubject e := by
  cases e
  case clearDone => exact decide_iff_same_code (singleton_byteOf_inj (by decide))
  all_goals exact iff_of_false Bool.noConfusion fun hboth => Bool.noConfusion (beq_iff_eq.2 hboth.1)

theorem extentDamaged_sameSubject (a : Fin 32) (b : Nat) (e : Event) :
    (Event.extentDamaged a b).sameSubject e = true ↔
      eventCode (Event.extentDamaged a b) = eventCode e ∧ eventSubject (Event.extentDamaged a b) = eventSubject e := by
  cases e
  case extentDamaged => exact decide_iff_same_code (singleton_byteOf_inj (by decide))
  all_goals exact iff_of_false Bool.noConfusion fun hboth => Bool.noConfusion (beq_iff_eq.2 hboth.1)

theorem grantWithdrawn_sameSubject (a : Fin 32) (b : PortId) (e : Event) :
    (Event.grantWithdrawn a b).sameSubject e = true ↔
      eventCode (Event.grantWithdrawn a b) = eventCode e ∧ eventSubject (Event.grantWithdrawn a b) = eventSubject e := by
  cases e
  case grantWithdrawn => exact decide_iff_same_code (singleton_byteOf_inj (by decide))
  all_goals exact iff_of_false Bool.noConfusion fun hboth => Bool.noConfusion (beq_iff_eq.2 hboth.1)

theorem grantEnded_sameSubject (a : Fin 32) (b : PortId) (e : Event) :
    (Event.grantEnded a b).sameSubject e = true ↔
      eventCode (Event.grantEnded a b) = eventCode e ∧ eventSubject (Event.grantEnded a b) = eventSubject e := by
  cases e
  case grantEnded => exact decide_iff_same_code (singleton_byteOf_inj (by decide))
  all_goals exact iff_of_false Bool.noConfusion fun hboth => Bool.noConfusion (beq_iff_eq.2 hboth.1)

theorem underrun_sameSubject (a : Fin 16) (b : Half) (e : Event) :
    (Event.underrun a b).sameSubject e = true ↔
      eventCode (Event.underrun a b) = eventCode e ∧ eventSubject (Event.underrun a b) = eventSubject e := by
  cases e
  case underrun => exact decide_iff_same_code (singleton_byteOf_inj (by decide))
  all_goals exact iff_of_false Bool.noConfusion fun hboth => Bool.noConfusion (beq_iff_eq.2 hboth.1)

theorem checkResult_sameSubject (a : Fin 8) (b : WinResult) (c : Color) (e : Event) :
    (Event.checkResult a b c).sameSubject e = true ↔
      eventCode (Event.checkResult a b c) = eventCode e ∧ eventSubject (Event.checkResult a b c) = eventSubject e := by
  cases e
  case checkResult => exact decide_iff_same_code (singleton_byteOf_inj (by decide))
  all_goals exact iff_of_false Bool.noConfusion fun hboth => Bool.noConfusion (beq_iff_eq.2 hboth.1)

theorem checkFault_sameSubject (a : Fin 8) (b : PortId) (c : Nat) (d : Color) (e : Event) :
    (Event.checkFault a b c d).sameSubject e = true ↔
      eventCode (Event.checkFault a b c d) = eventCode e ∧ eventSubject (Event.checkFault a b c d) = eventSubject e := by
  cases e
  case checkFault => exact decide_iff_same_code (singleton_byteOf_inj (by decide))
  all_goals exact iff_of_false Bool.noConfusion fun hboth => Bool.noConfusion (beq_iff_eq.2 hboth.1)

theorem planProposed_sameSubject (a : PortId) (b : Half) (e : Event) :
    (Event.planProposed a b).sameSubject e = true ↔
      eventCode (Event.planProposed a b) = eventCode e ∧ eventSubject (Event.planProposed a b) = eventSubject e := by
  cases e
  case planProposed => exact decide_iff_same_code singleton_encodePort_inj
  all_goals exact iff_of_false Bool.noConfusion fun hboth => Bool.noConfusion (beq_iff_eq.2 hboth.1)

theorem planRejected_sameSubject (a : PortId) (e : Event) :
    (Event.planRejected a).sameSubject e = true ↔
      eventCode (Event.planRejected a) = eventCode e ∧ eventSubject (Event.planRejected a) = eventSubject e := by
  cases e
  case planRejected => exact decide_iff_same_code singleton_encodePort_inj
  all_goals exact iff_of_false Bool.noConfusion fun hboth => Bool.noConfusion (beq_iff_eq.2 hboth.1)

theorem planFailed_sameSubject (a : PlanFailure) (b : PortId) (e : Event) :
    (Event.planFailed a b).sameSubject e = true ↔
      eventCode (Event.planFailed a b) = eventCode e ∧ eventSubject (Event.planFailed a b) = eventSubject e := by
  cases e
  case planFailed => exact iff_of_true rfl ⟨rfl, rfl⟩
  all_goals exact iff_of_false Bool.noConfusion fun hboth => Bool.noConfusion (beq_iff_eq.2 hboth.1)

theorem planAdopted_sameSubject (a : Half) (e : Event) :
    (Event.planAdopted a).sameSubject e = true ↔
      eventCode (Event.planAdopted a) = eventCode e ∧ eventSubject (Event.planAdopted a) = eventSubject e := by
  cases e
  case planAdopted => exact decide_iff_same_code encode16_inj.symm
  all_goals exact iff_of_false Bool.noConfusion fun hboth => Bool.noConfusion (beq_iff_eq.2 hboth.1)

theorem peerJoined_sameSubject (a : PortId) (e : Event) :
    (Event.peerJoined a).sameSubject e = true ↔
      eventCode (Event.peerJoined a) = eventCode e ∧ eventSubject (Event.peerJoined a) = eventSubject e := by
  cases e
  case peerJoined => exact decide_iff_same_code singleton_encodePort_inj
  all_goals exact iff_of_false Bool.noConfusion fun hboth => Bool.noConfusion (beq_iff_eq.2 hboth.1)

theorem peerLeft_sameSubject (a : PortId) (e : Event) :
    (Event.peerLeft a).sameSubject e = true ↔
      eventCode (Event.peerLeft a) = eventCode e ∧ eventSubject (Event.peerLeft a) = eventSubject e := by
  cases e
  case peerLeft => exact decide_iff_same_code singleton_encodePort_inj
  all_goals exact iff_of_false Bool.noConfusion fun hboth => Bool.noConfusion (beq_iff_eq.2 hboth.1)

theorem leaseExpired_sameSubject (e : Event) :
    Event.leaseExpired.sameSubject e = true ↔
      eventCode Event.leaseExpired = eventCode e ∧ eventSubject Event.leaseExpired = eventSubject e := by
  cases e
  case leaseExpired => exact iff_of_true rfl ⟨rfl, rfl⟩
  all_goals exact iff_of_false Bool.noConfusion fun hboth => Bool.noConfusion (beq_iff_eq.2 hboth.1)

theorem sameSubject_iff (d e : Event) :
    d.sameSubject e = true ↔ eventCode d = eventCode e ∧ eventSubject d = eventSubject e :=
  match d with
  | .batchApplied a b c => batchApplied_sameSubject a b c e
  | .batchRejected a b c d => batchRejected_sameSubject a b c d e
  | .clearDone a => clearDone_sameSubject a e
  | .extentDamaged a b => extentDamaged_sameSubject a b e
  | .grantWithdrawn a b => grantWithdrawn_sameSubject a b e
  | .grantEnded a b => grantEnded_sameSubject a b e
  | .underrun a b => underrun_sameSubject a b e
  | .checkResult a b c => checkResult_sameSubject a b c e
  | .checkFault a b c d => checkFault_sameSubject a b c d e
  | .planProposed a b => planProposed_sameSubject a b e
  | .planRejected a => planRejected_sameSubject a e
  | .planFailed a b => planFailed_sameSubject a b e
  | .planAdopted a => planAdopted_sameSubject a e
  | .peerJoined a => peerJoined_sameSubject a e
  | .peerLeft a => peerLeft_sameSubject a e
  | .leaseExpired => leaseExpired_sameSubject e

/-! ### Coalescing -/

theorem coalesce_none_of {e : Event} {frames : List Frame}
    (h : ∀ f ∈ frames, ∀ d k, f = .event d k → d.sameSubject e = false) : coalesce e frames = none := by
  induction frames with
  | nil => rfl
  | cons f rest ih =>
    have hrest : coalesce e rest = none := ih fun g hg => h g (List.mem_cons_of_mem _ hg)
    have hhead := h f List.mem_cons_self
    unfold coalesce
    rw [hrest]
    cases f with
    | response => rfl
    | event d k =>
      have hne := hhead d k rfl
      simp [hne]

theorem coalesce_newest {e old : Event} {n : Nat} {before after : List Frame} (hold : old.sameSubject e = true)
    (hafter : ∀ f ∈ after, ∀ d k, f = .event d k → d.sameSubject e = false) :
    coalesce e (before ++ .event old n :: after) = some (before ++ .event e (min 255 (n + 1)) :: after) := by
  induction before with
  | nil => simp [coalesce, coalesce_none_of hafter, hold]
  | cons f rest ih => simp [coalesce, ih]

theorem takeEvent_append {c : PortController} {e : Event} (h : c.outbound.countP Frame.isEvent < 12) :
    c.takeEvent e = { c with outbound := c.outbound ++ [.event e 1] } :=
  if_pos h

theorem takeEvent_full {c : PortController} {e : Event} (h : 12 ≤ c.outbound.countP Frame.isEvent) :
    c.takeEvent e = if c.headFixed then
        match coalesce e c.outbound.tail with
        | some q => { c with outbound := c.outbound.take 1 ++ q }
        | none => c.dropEvent
      else match coalesce e c.outbound with
        | some q => { c with outbound := q }
        | none => c.dropEvent :=
  if_neg (Nat.not_lt.mpr h)

theorem takeEvent_coalesce {c : PortController} {e old : Event} {n : Nat} {before after : List Frame}
    (hfull : 12 ≤ c.outbound.countP Frame.isEvent) (hqueue : c.outbound = before ++ .event old n :: after)
    (hold : old.sameSubject e = true)
    (hafter : ∀ f ∈ after, ∀ d k, f = .event d k → d.sameSubject e = false)
    (hfixed : c.headFixed = true → before ≠ []) :
    c.takeEvent e = { c with outbound := before ++ .event e (min 255 (n + 1)) :: after } := by
  rw [takeEvent_full hfull]
  by_cases hhead : c.headFixed = true
  · cases before with
    | nil => exact absurd rfl (hfixed hhead)
    | cons first rest => simp [hhead, hqueue, coalesce_newest hold hafter]
  · simp [hhead, hqueue, coalesce_newest hold hafter]

theorem takeEvent_drop {c : PortController} {e : Event} (hfull : 12 ≤ c.outbound.countP Frame.isEvent)
    (hnone : ∀ f ∈ (if c.headFixed then c.outbound.tail else c.outbound), ∀ d k, f = .event d k →
      d.sameSubject e = false) : c.takeEvent e = c.dropEvent := by
  rw [takeEvent_full hfull]
  by_cases hhead : c.headFixed = true
  · rw [if_pos hhead] at hnone ⊢
    rw [coalesce_none_of hnone]
  · rw [if_neg hhead] at hnone ⊢
    rw [coalesce_none_of hnone]

/-! ### Arrival -/

theorem takesEvents_iff (r : Session) :
    r.takesEvents = true ↔ r.state = .joined ∨ r.state = .draining ∧ r.cause = some .leave := by
  cases hstate : r.state <;> simp [Session.takesEvents, hstate]

theorem deliver_respond {s : State} {p : PortId} {result : Result} {payload : List Byte} {r : Request}
    {rest : List Request} (h : (s.ports.get p).requests = r :: rest) :
    s.deliver (.respond p result payload) = s.setPort p
      { s.ports.get p with
        requests := rest, executing := false, discard := false,
        outbound := if (s.ports.get p).discard then (s.ports.get p).outbound
          else (s.ports.get p).outbound ++ [.response r.tag result payload] } := by
  simp only [State.deliver, PortController.takeResponse, h]

theorem settle_of_arrange (a : Act) :
    ∃ arrived : List (Origin × Msg),
      arrived.Perm a.out ∧
      (∀ o : Origin, arrived.filter (fun m => decide (m.1 = o)) = a.out.filter fun m => decide (m.1 = o)) ∧
      a.settle = (arrived.map Prod.snd).foldl State.deliver { a.st with arrivals := a.st.arrivals.tail } := by
  obtain ⟨arrived, hperm, horigins, hmsgs⟩ := arrange_keeps_origins (a.st.arrivals.headD []) a.out
  exact ⟨arrived, hperm, horigins, by rw [Act.settle, hmsgs]⟩

end Sys2Proof.Machine
end

section
set_option Elab.async false

open Sys2Proof Sys2Proof.Machine

/-- Settles O13: an event is coalesced by induction on the queue before it, from the tail on; the messages of a step
arrive as `arrange` orders them, which keeps the order of each origin. -/
theorem eventsAreQueuedCoalescedOrDropped : Obligations.EventsAreQueuedCoalescedOrDropped :=
  ⟨fun _ e => ⟨fun d => sameSubject_iff d e, takeEvent_append,
      fun _ _ _ _ hfull hqueue hold hafter hfixed => takeEvent_coalesce hfull hqueue hold hafter hfixed,
      takeEvent_drop⟩,
    takesEvents_iff,
    fun _ _ => ⟨fun _ => rfl, fun _ _ _ _ h => deliver_respond h, rfl⟩,
    settle_of_arrange⟩

end

section
/-! SUPPORT. First fit, and the rows it finds taken (R103). -/

set_option Elab.async false

namespace Sys2Proof.Machine

theorem lowestNat_cons (n : Nat) (l : List Nat) :
    lowestNat (n :: l) = some (match lowestNat l with | some m => min n m | none => n) := by
  rw [lowestNat]
  cases lowestNat l <;> rfl

theorem lowestNat_le {l : List Nat} {x : Nat} (hx : x ∈ l) : ∃ m, lowestNat l = some m ∧ m ≤ x := by
  induction l with
  | nil => cases hx
  | cons n rest ih =>
    refine ⟨_, lowestNat_cons n rest, ?_⟩
    rcases List.mem_cons.1 hx with rfl | hrest
    · cases lowestNat rest with
      | none => exact Nat.le_refl x
      | some m => exact Nat.min_le_left x m
    · obtain ⟨m, hm, hle⟩ := ih hrest
      rw [hm]
      exact Nat.le_trans (Nat.min_le_right n m) hle

/-- A free run that begins at the lowest row begins at row 0 or where a taken run ends. -/
theorem lowest_runFree_candidate {taken : List (Nat × Nat)} {n g : Nat} (hfree : runFree taken n g = true)
    (hlowest : ∀ g', g' < g → runFree taken n g' = false) : g ∈ 0 :: taken.map fun r => r.1 + r.2 := by
  cases g with
  | zero => exact List.mem_cons_self
  | succ g =>
    have hbefore : ¬runFree taken n g = true := by simp [hlowest g (Nat.lt_succ_self g)]
    obtain ⟨hin, hapart⟩ := runFree_iff.1 hfree
    rw [runFree_iff] at hbefore
    have hmeets : ∃ r ∈ taken, ¬(g + n ≤ r.1 ∨ r.1 + r.2 ≤ g) := by
      refine Classical.byContradiction fun hnone => hbefore ⟨by omega, fun r hr => ?_⟩
      exact Classical.byContradiction fun hmeets => hnone ⟨r, hr, hmeets⟩
    obtain ⟨r, hr, hmeets⟩ := hmeets
    have hend : r.1 + r.2 = g + 1 := by
      have := hapart r hr
      omega
    exact List.mem_cons_of_mem _ (List.mem_map.2 ⟨r, hr, hend⟩)

theorem firstFit_eq_some {taken : List (Nat × Nat)} {n g : Nat} (hfree : runFree taken n g = true)
    (hlowest : ∀ g', g' < g → runFree taken n g' = false) : firstFit taken n = some g := by
  obtain ⟨m, hm, hle⟩ := lowestNat_le
    (List.mem_filter.2 ⟨lowest_runFree_candidate hfree hlowest, hfree⟩)
  have hmfree : runFree taken n m = true := runFree_of_firstFit hm
  have hge : g ≤ m := Nat.le_of_not_lt fun hlt => by
    rw [hlowest m hlt] at hmfree
    exact Bool.noConfusion hmfree
  rw [firstFit, hm, Nat.le_antisymm hle hge]

theorem firstFit_eq_none {taken : List (Nat × Nat)} {n : Nat} (h : ∀ g, runFree taken n g = false) :
    firstFit taken n = none := by
  cases hfit : firstFit taken n with
  | none => rfl
  | some g =>
    have hfree := runFree_of_firstFit hfit
    rw [h g] at hfree
    exact Bool.noConfusion hfree

/-- A row of the store that no extent holds and no access or write of the banks has left to do. -/
structure RowFree (s : State) (x : Nat) : Prop where
  inStore : x < 4096
  noExtent : ∀ h e, s.extent h = some e → ¬(e.firstRow ≤ x ∧ x < e.firstRow + e.rows)
  notInFlight : x ∉ rowsInFlight s
  notWritten : x ∉ rowsBeingWritten s

theorem mem_takenRuns_iff {s : State} {r : Nat × Nat} : r ∈ takenRuns s ↔
    (∃ h e, s.extent h = some e ∧ r = (e.firstRow, e.rows)) ∨
      ∃ x, (x ∈ rowsInFlight s ∨ x ∈ rowsBeingWritten s) ∧ r = (x, 1) := by
  simp only [takenRuns, List.mem_append, List.mem_filterMap, List.mem_map, List.mem_finRange, true_and,
    Option.map_eq_some_iff, eq_comm (a := r)]

theorem rowFree_iff {s : State} {x : Nat} : RowFree s x ↔
    x < 4096 ∧ ∀ r ∈ takenRuns s, ¬(r.1 ≤ x ∧ x < r.1 + r.2) := by
  constructor
  · intro h
    refine ⟨h.inStore, fun r hr => ?_⟩
    rcases mem_takenRuns_iff.1 hr with ⟨k, e, he, rfl⟩ | ⟨y, hy, rfl⟩
    · exact h.noExtent k e he
    · rintro ⟨hle, hlt⟩
      obtain rfl : x = y := by dsimp only at hle hlt; omega
      exact hy.elim h.notInFlight h.notWritten
  · rintro ⟨hin, hfree⟩
    exact ⟨hin, fun k e he => hfree _ (mem_takenRuns_iff.2 (.inl ⟨k, e, he, rfl⟩)),
      fun hx => hfree _ (mem_takenRuns_iff.2 (.inr ⟨x, .inl hx, rfl⟩)) ⟨Nat.le_refl _, Nat.lt_succ_self _⟩,
      fun hx => hfree _ (mem_takenRuns_iff.2 (.inr ⟨x, .inr hx, rfl⟩)) ⟨Nat.le_refl _, Nat.lt_succ_self _⟩⟩

/-- A run is free exactly when each of its rows is, as every taken run holds a row. -/
theorem runFree_iff_rowFree {s : State} {n g : Nat} (hinv : extentsInv s = true) (hn : 1 ≤ n) :
    runFree (takenRuns s) n g = true ↔ ∀ x, g ≤ x → x < g + n → RowFree s x := by
  have hrows : ∀ r ∈ takenRuns s, 1 ≤ r.2 := by
    intro r hr
    rcases mem_takenRuns_iff.1 hr with ⟨k, e, he, rfl⟩ | ⟨y, -, rfl⟩
    · exact (extentsInv_iff.1 hinv k e he).1
    · exact Nat.le_refl 1
  simp only [rowFree_iff]
  rw [runFree_iff]
  constructor
  · rintro ⟨hin, hapart⟩ x hle hlt
    refine ⟨by omega, fun r hr => ?_⟩
    have := hapart r hr
    omega
  · intro hfree
    refine ⟨by have := (hfree (g + n - 1) (by omega) (by omega)).1; omega, fun r hr => ?_⟩
    have hrow := hrows r hr
    have hfirst : ∀ x, g ≤ x → x < g + n → ¬(r.1 ≤ x ∧ x < r.1 + r.2) := fun x hle hlt => (hfree x hle hlt).2 r hr
    have hatStart := hfirst r.1
    have hatG := hfirst g (Nat.le_refl g) (by omega)
    omega

theorem runFree_eq_false_iff {s : State} {n g : Nat} (hinv : extentsInv s = true) (hn : 1 ≤ n) :
    runFree (takenRuns s) n g = false ↔ ∃ x, g ≤ x ∧ x < g + n ∧ ¬RowFree s x := by
  rw [← Bool.not_eq_true, runFree_iff_rowFree hinv hn]
  simp only [not_forall, exists_prop]

end Sys2Proof.Machine
end

section
/-! PROOF. Alloc Extent (R103). -/

set_option Elab.async false

namespace Sys2Proof.Machine

variable {p : PortId} {s : State} {r : Request}

theorem exec_allocExtent (h : asksFor s p r 0x18 2 = true) :
    exec (.allocExtent p) s = .next (allocExtentBody p r.payload s).settleAndArbitrate :=
  congrArg Host.Outcome.next (serve_asksFor .joinedOnly (allocExtentBody p) Act.settleAndArbitrate h (by decide))

variable {n : Nat}

theorem allocExtentBody_field (hn : n < 65536) (hrange : n = 0 ∨ 4096 < n) :
    allocExtentBody p (encode16 n) s = answer p .field [] s := by
  have hfield : field (encode16 n) 0 2 = n := by simpa using field_encode16 hn []
  rw [allocExtentBody, hfield, within_eq_none (by omega)]

theorem allocExtentBody_inRange (hn : n < 65536) (hmin : 1 ≤ n) (hmax : n ≤ 4096) :
    allocExtentBody p (encode16 n) s =
      if (s.quotas p).extents ≤ extentsOwned s p ∨ (s.quotas p).rows < rowsOwned s p + n then answer p .quota [] s
      else
        match lowest fun h => (s.extent h).isNone with
        | none => answer p .full [] s
        | some h =>
          match firstFit (takenRuns s) n with
          | none => answer p .noSpace [] s
          | some g =>
            answer p .ok (byteOf h.val :: encode16 g)
              ((s.setExtent h (some (newExtent p g n))).setClearList p (s.extents.clearLists.get p ++ [h])) := by
  have hfield : field (encode16 n) 0 2 = n := by simpa using field_encode16 hn []
  rw [allocExtentBody, hfield, within_of_le hmin hmax] <;> rfl

theorem lowest_freeHandle_none :
    (lowest fun k => (s.extent k).isNone) = none ↔ ∀ k, s.extent k ≠ none := by
  simp [lowest, List.find?_eq_none]

theorem lowest_freeHandle {h : Fin 32} (hfree : s.extent h = none) (hlowest : ∀ k, k < h → s.extent k ≠ none) :
    (lowest fun k => (s.extent k).isNone) = some h :=
  lowest_eq_some_of (by rw [hfree]; rfl) fun k hk => by
    cases hrecord : s.extent k with
    | none => exact absurd hrecord (hlowest k hk)
    | some e => rfl

end Sys2Proof.Machine
end

section
set_option Elab.async false

open Sys2Proof Sys2Proof.Machine

/-- Settles O29: the lowest free run begins at row 0 or where a taken run ends, so first fit finds it. -/
theorem allocExtentIsFirstFit : Obligations.AllocExtentIsFirstFit := by
  intro p r s n h hn hpayload hinv free
  have hasks := (asksFor_iff.1 h).1
  have hexec := exec_allocExtent h
  rw [hpayload] at hexec
  have hrow : ∀ x, free x ↔ RowFree s x := fun x =>
    ⟨fun ⟨h1, h2, h3, h4⟩ => ⟨h1, h2, h3, h4⟩, fun ⟨h1, h2, h3, h4⟩ => ⟨h1, h2, h3, h4⟩⟩
  simp only [hrow]
  refine ⟨fun hrange => ?_, fun hmin hmax => ?_⟩
  · exact hexec.trans (congrArg Host.Outcome.next (settleAndArbitrate_refusal hasks (allocExtentBody_field hn hrange)))
  · have hbody := allocExtentBody_inRange (p := p) (s := s) hn hmin hmax
    refine ⟨fun hquota => ?_, fun howned hrows => ⟨fun hfull => ?_, fun hhandle hnone => ?_⟩,
      fun h g howned hrows hfree hlowest hrun hfirst => ?_⟩
    · exact hexec.trans (congrArg Host.Outcome.next (settleAndArbitrate_refusal hasks (hbody.trans (if_pos hquota))))
    · rw [if_neg (by omega), lowest_freeHandle_none.2 hfull] at hbody
      exact hexec.trans (congrArg Host.Outcome.next (settleAndArbitrate_refusal hasks hbody))
    · have hfit : firstFit (takenRuns s) n = none :=
        firstFit_eq_none fun g => (runFree_eq_false_iff hinv hmin).2 (hnone g)
      obtain ⟨k, hk⟩ := hhandle
      cases hlow : lowest fun k => (s.extent k).isNone with
      | none => exact absurd hk (lowest_freeHandle_none.1 hlow k)
      | some k' =>
        rw [if_neg (by omega), hlow, hfit] at hbody
        exact hexec.trans (congrArg Host.Outcome.next (settleAndArbitrate_refusal hasks hbody))
    · have hfit : firstFit (takenRuns s) n = some g :=
        firstFit_eq_some ((runFree_iff_rowFree hinv hmin).2 hrun) fun g' hg' =>
          (runFree_eq_false_iff hinv hmin).2 (hfirst g' hg')
      rw [if_neg (by omega), lowest_freeHandle hfree hlowest, hfit] at hbody
      exact hexec.trans (congrArg (fun t => Host.Outcome.next (arbitrate t)) (settle_body_answer hasks hbody rfl))

end

section
/-! SUPPORT. What a transfer unit loses with the extents taken from it: its record, its accesses in flight and the answer
to its Read, composed from one notice to the next (R131, R141, R148, R152). -/

set_option Elab.async false

namespace Sys2Proof.Machine

/-! ### One transfer unit -/

/-- The buffer after those extents are lost. -/
def ReadAhead.losingAll (b : ReadAhead) (taken : Fin 32 → Bool) : ReadAhead :=
  if b.handle?.any taken then .empty else b

/-- The transfer unit after the extents that `taken` names are lost to it; `row` gives their first rows. -/
def TransferUnit.losingAll (u : TransferUnit) (taken : Fin 32 → Bool) (row : Fin 32 → Nat) : TransferUnit :=
  { cursor := u.cursor.filter fun c => !taken c.handle
    buffer := u.buffer.losingAll taken
    job := u.job.bind fun j =>
      if j.isRead && taken j.handle then none
      else some (if u.buffer.handle?.any taken then j.standAlone (row j.handle) else j) }

/-- The unit's accesses in flight are given up when those extents are lost to it. -/
def TransferUnit.givesUp (u : TransferUnit) (taken : Fin 32 → Bool) : Bool :=
  (u.buffer.isFetching && u.buffer.handle?.any taken) || u.job.any fun j => j.isRead && taken j.handle

/-- The answer to the Read that ends when those extents are lost to port `q`. -/
def TransferUnit.endAnswer (u : TransferUnit) (q : PortId) (taken : Fin 32 → Option Result) : List Msg :=
  (u.job.bind fun j => if j.isRead then (taken j.handle).map fun v => .respond q v [] else none).toList

/-- One extent is taken, with the answer to a Read of it. -/
def takenOnly (h : Fin 32) (v : Result) (k : Fin 32) : Option Result := if k = h then some v else none

/-- What is taken at one time or at a later one; a Read is answered at the first. -/
def takenThen (A B : Fin 32 → Option Result) (h : Fin 32) : Option Result := (A h).or (B h)

variable (u : TransferUnit)

theorem losing_eq_losingAll (h : Fin 32) (v : Result) (row : Fin 32 → Nat) :
    u.losing h row = u.losingAll (fun k => (takenOnly h v k).isSome) row := by
  have htaken : (fun k => (takenOnly h v k).isSome) = fun k => decide (k = h) := by
    funext k
    by_cases hk : k = h <;> simp [takenOnly, hk]
  have hany : ((u.buffer.handle?.any fun k => decide (k = h)) = true) = (u.buffer.handle? = some h) := by
    cases u.buffer.handle? <;> simp
  rw [htaken]
  simp only [TransferUnit.losing, TransferUnit.losingAll, ReadAhead.losingAll, hany, decide_not]

theorem standAlone_of_not_isRead {j : Job} (h : j.isRead = false) (row : Nat) : j.standAlone row = j := by
  unfold Job.isRead at h
  unfold Job.standAlone
  split <;> simp_all

theorem any_or {α : Type} (o : Option α) (f g : α → Bool) : (o.any fun x => f x || g x) = (o.any f || o.any g) := by
  cases o <;> rfl

theorem takenThen_isSome (A B : Fin 32 → Option Result) :
    (fun h => (takenThen A B h).isSome) = fun h => (A h).isSome || (B h).isSome := by
  funext h
  exact Option.isSome_or

theorem losingAll_any (b : ReadAhead) (A B : Fin 32 → Bool) :
    (b.losingAll A).handle?.any B = (!b.handle?.any A && b.handle?.any B) := by
  unfold ReadAhead.losingAll
  cases hA : b.handle?.any A <;> simp [ReadAhead.handle?]

theorem losingAll_isFetching (b : ReadAhead) (A : Fin 32 → Bool) :
    (b.losingAll A).isFetching = (!b.handle?.any A && b.isFetching) := by
  unfold ReadAhead.losingAll
  cases hA : b.handle?.any A <;> simp [ReadAhead.isFetching]

theorem buffer_losingAll_losingAll (b : ReadAhead) (A B : Fin 32 → Bool) :
    (b.losingAll A).losingAll B = b.losingAll fun h => A h || B h := by
  rw [ReadAhead.losingAll, losingAll_any, ReadAhead.losingAll, ReadAhead.losingAll, any_or]
  cases b.handle?.any A <;> cases b.handle?.any B <;> rfl

/-- What is lost first and what is lost then make together one loss. -/
theorem losingAll_losingAll {A B : Fin 32 → Bool} {row row' : Fin 32 → Nat}
    (hrow : ∀ k, A k = false → B k = false → row' k = row k) :
    (u.losingAll A row).losingAll B row' = u.losingAll (fun h => A h || B h) row := by
  obtain ⟨cursor, buffer, job⟩ := u
  simp only [TransferUnit.losingAll, buffer_losingAll_losingAll, losingAll_any, any_or, TransferUnit.mk.injEq,
    true_and]
  refine ⟨?_, ?_⟩
  · rw [Option.filter_filter]
    congr 1
    funext c
    cases A c.handle <;> simp
  · cases job with
    | none => rfl
    | some j =>
      cases hread : j.isRead with
      | false => simp [hread, standAlone_of_not_isRead hread]
      | true =>
        cases hA : A j.handle with
        | true => simp [hread, hA]
        | false =>
          cases hB : B j.handle with
          | true => cases buffer.handle?.any A <;> simp [hread, hA, hB, standAlone_reads]
          | false =>
            have hsame := hrow _ hA hB
            cases buffer.handle?.any A <;> cases buffer.handle?.any B <;>
              simp [hread, hA, hB, standAlone_reads, hsame]

/-- The Read that goes on after those extents are lost is the one whose extent is not lost. -/
theorem losingAll_readBind {A : Fin 32 → Bool} {row : Fin 32 → Nat} {α : Type} (f : Fin 32 → Option α) :
    ((u.losingAll A row).job.bind fun j => if j.isRead then f j.handle else none) =
      u.job.bind fun j => if j.isRead && !A j.handle then f j.handle else none := by
  obtain ⟨cursor, buffer, job⟩ := u
  cases job with
  | none => rfl
  | some j =>
    cases hA : A j.handle <;> cases hread : j.isRead <;> cases hempty : buffer.handle?.any A <;>
      simp [TransferUnit.losingAll, hA, hread, hempty, standAlone_reads]

theorem losingAll_readAny {A B : Fin 32 → Bool} {row : Fin 32 → Nat} :
    ((u.losingAll A row).job.any fun j => j.isRead && B j.handle) =
      u.job.any fun j => j.isRead && (!A j.handle && B j.handle) := by
  obtain ⟨cursor, buffer, job⟩ := u
  cases job with
  | none => rfl
  | some j =>
    cases hA : A j.handle <;> cases hread : j.isRead <;> cases hempty : buffer.handle?.any A <;>
      simp [TransferUnit.losingAll, hA, hread, hempty, standAlone_reads]

theorem given_bool (fetching a b read A B : Bool) :
    (fetching && a || (read && A) || (((!a && fetching) && (!a && b)) || (read && (!A && B)))) =
      (fetching && (a || b) || (read && (A || B))) := by
  revert fetching a b read A B
  decide

/-- The accesses given up are those given up first and those given up then. -/
theorem givesUp_losingAll {A B : Fin 32 → Bool} {row : Fin 32 → Nat} :
    (u.givesUp A || (u.losingAll A row).givesUp B) = u.givesUp fun h => A h || B h := by
  simp only [TransferUnit.givesUp, losingAll_readAny]
  simp only [TransferUnit.losingAll, losingAll_any, losingAll_isFetching, any_or]
  cases u.job with
  | none => exact given_bool u.buffer.isFetching (u.buffer.handle?.any A) (u.buffer.handle?.any B) false false false
  | some j =>
    exact given_bool u.buffer.isFetching (u.buffer.handle?.any A) (u.buffer.handle?.any B) j.isRead (A j.handle)
      (B j.handle)

/-- A Read is answered once, at the first loss that ends it. -/
theorem endAnswer_losingAll {q : PortId} {A B : Fin 32 → Option Result} {row : Fin 32 → Nat} :
    u.endAnswer q A ++ (u.losingAll (fun h => (A h).isSome) row).endAnswer q B = u.endAnswer q (takenThen A B) := by
  rw [TransferUnit.endAnswer, TransferUnit.endAnswer, TransferUnit.endAnswer,
    losingAll_readBind u fun h => (B h).map fun v => Msg.respond q v []]
  cases u.job with
  | none => rfl
  | some j =>
    cases hread : j.isRead with
    | false => simp [hread]
    | true => cases hA : A j.handle <;> simp [hread, hA, takenThen]

theorem losingAll_none (row : Fin 32 → Nat) : u.losingAll (fun _ => false) row = u := by
  obtain ⟨cursor, buffer, job⟩ := u
  cases cursor <;> cases job <;> cases buffer <;>
    simp [TransferUnit.losingAll, ReadAhead.losingAll, ReadAhead.handle?]

end Sys2Proof.Machine
end

section
/-! SUPPORT. The notices of a lost extent, each port's share of them composed along an action. -/

set_option Elab.async false

namespace Sys2Proof.Machine

/-- The accesses of port `q` in flight stay in flight, and are no longer wanted when `given` says so. -/
def inFlightGiven (s t : State) (q : PortId) (given : Bool) : Prop :=
  ∀ b x, (s.banks.get b).inFlight = some x → x.requester = .transfer q →
    (t.banks.get b).inFlight = some (if given then { x with wanted := false } else x)

theorem inFlightGiven_refl (s : State) (q : PortId) : inFlightGiven s s q false := fun _ _ h _ => h

theorem inFlightGiven.trans {s t u : State} {q : PortId} {x y : Bool} (h : inFlightGiven s t q x)
    (k : inFlightGiven t u q y) : inFlightGiven s u q (x || y) := by
  intro b a ha hq
  refine (k b _ (h b a ha hq) (by cases x <;> exact hq)).trans ?_
  cases x <;> cases y <;> rfl

theorem answersTo_andThen (q : PortId) (a : Act) (f : State → Act) :
    answersTo q (a.andThen f) = answersTo q a ++ answersTo q (f a.st) := by
  simp [answersTo, Act.sent]

/-- The action leaves port `q` its transfer unit and its accesses in flight, and answers it nothing. -/
structure Spares (s : State) (a : Act) (q : PortId) : Prop where
  unit : a.st.transfer.get q = s.transfer.get q
  inFlight : inFlightGiven s a.st q false
  answers : answersTo q a = []

/-- The action takes the extents that `taken` names from port `q`, and answers its Read of one of them. -/
structure Loses (s : State) (a : Act) (q : PortId) (taken : Fin 32 → Option Result) : Prop where
  unit : a.st.transfer.get q = (s.transfer.get q).losingAll (fun h => (taken h).isSome) s.firstRowOf
  inFlight : inFlightGiven s a.st q ((s.transfer.get q).givesUp fun h => (taken h).isSome)
  answers : answersTo q a = (s.transfer.get q).endAnswer q taken

variable {s : State} {a : Act} {f : State → Act} {q : PortId}

theorem Spares.of_same {t : State} (hunit : t.transfer = s.transfer) (hbanks : t.banks = s.banks) :
    Spares s (.quiet t) q :=
  ⟨congrArg (fun x => PerPort.get x q) hunit, fun b x hx _ => by rw [Act.quiet_st, hbanks]; exact hx, rfl⟩

theorem Spares.andThen (h : Spares s a q) (k : Spares a.st (f a.st) q) : Spares s (a.andThen f) q where
  unit := k.unit.trans h.unit
  inFlight := h.inFlight.trans k.inFlight
  answers := by rw [answersTo_andThen, h.answers, k.answers, List.append_nil]

theorem Spares.send_event (h : Spares s a q) (o : Origin) (p : PortId) (e : Event) :
    Spares s (a.send o (.event p e)) q where
  unit := h.unit
  inFlight := h.inFlight
  answers := by
    rw [← h.answers]
    cases o <;> simp [answersTo, Act.sent]

theorem Spares.sendAll (h : Spares s a q) (o : Origin) (l : List PortId) (e : Event) :
    Spares s (a.sendAll o l e) q where
  unit := h.unit
  inFlight := h.inFlight
  answers := by
    rw [← h.answers]
    cases o <;> simp [answersTo, Act.sent, List.filter_map, Function.comp_def]

theorem Spares.loses_none (h : Spares s a q) : Loses s a q fun _ => none where
  unit := by rw [h.unit]; exact (losingAll_none _ _).symm
  inFlight := by
    have hgiven : ((s.transfer.get q).givesUp fun h => (none : Option Result).isSome) = false := by
      unfold TransferUnit.givesUp
      cases (s.transfer.get q).buffer <;> cases (s.transfer.get q).job <;> simp [ReadAhead.handle?]
    rw [hgiven]
    exact h.inFlight
  answers := by
    rw [h.answers, TransferUnit.endAnswer]
    cases (s.transfer.get q).job <;> simp

theorem Loses.andThen {A B : Fin 32 → Option Result} (h : Loses s a q A) (k : Loses a.st (f a.st) q B)
    (hrow : ∀ x, A x = none → B x = none → a.st.firstRowOf x = s.firstRowOf x) :
    Loses s (a.andThen f) q (takenThen A B) where
  unit := by
    rw [Act.andThen_st, k.unit, h.unit, takenThen_isSome]
    exact losingAll_losingAll _ fun x hA hB => hrow x (by simpa using hA) (by simpa using hB)
  inFlight := by
    have hboth := h.inFlight.trans k.inFlight
    rwa [h.unit, givesUp_losingAll, ← takenThen_isSome] at hboth
  answers := by
    rw [answersTo_andThen, h.answers, k.answers, h.unit, endAnswer_losingAll]

theorem Loses.spared {A : Fin 32 → Option Result} (h : Loses s a q A) (k : Spares a.st (f a.st) q) :
    Loses s (a.andThen f) q A where
  unit := k.unit.trans h.unit
  inFlight := by simpa using h.inFlight.trans k.inFlight
  answers := by rw [answersTo_andThen, h.answers, k.answers, List.append_nil]

theorem Spares.loses {B : Fin 32 → Option Result} (h : Spares s a q) (k : Loses a.st (f a.st) q B)
    (hrow : ∀ x, B x = none → a.st.firstRowOf x = s.firstRowOf x) : Loses s (a.andThen f) q B := by
  have hthen := h.loses_none.andThen k fun x _ => hrow x
  exact hthen

end Sys2Proof.Machine
end

section
/-! SUPPORT. What a freed extent, a revoked grant and the departure of an owner take from each port (R108, R111, R115). -/

set_option Elab.async false

namespace Sys2Proof.Machine

variable {q : PortId} {s : State}

/-! ### Accesses given up -/

theorem giveUp_inFlight (s : State) (r : Requester) (b : BankId) {x : Access}
    (hx : (s.banks.get b).inFlight = some x) :
    ((s.giveUp r).banks.get b).inFlight = some (if x.requester = r then { x with wanted := false } else x) := by
  simp [State.giveUp, Bank.giveUp, hx]

theorem inFlightGiven_giveUp (s : State) (q : PortId) : inFlightGiven s (s.giveUp (.transfer q)) q true := by
  intro b x hx hq
  rw [giveUp_inFlight s _ b hx, if_pos hq, if_pos rfl]

theorem inFlightGiven_giveUp_other (s : State) {r : Requester} (hr : r ≠ .transfer q) :
    inFlightGiven s (s.giveUp r) q false := by
  intro b x hx hq
  rw [giveUp_inFlight s _ b hx, if_neg (by rw [hq]; exact hr.symm)]
  rfl

theorem inFlightGiven_of_banks {t : State} (h : t.banks = s.banks) : inFlightGiven s t q false := fun b x hx _ => by
  rw [h]
  exact hx

theorem emptyBuffer_banks_eq (p : PortId) (s : State) : (emptyBuffer p s).banks =
    (if (s.transfer.get p).buffer.isFetching then s.giveUp (.transfer p) else s).banks := rfl

theorem inFlightGiven_emptyBuffer (p : PortId) (s : State) :
    inFlightGiven s (emptyBuffer p s) p (s.transfer.get p).buffer.isFetching := by
  intro b x hx hq
  rw [emptyBuffer_banks_eq]
  cases (s.transfer.get p).buffer.isFetching with
  | true => exact inFlightGiven_giveUp s p b x hx hq
  | false => exact hx

theorem inFlightGiven_emptyBuffer_other {p : PortId} (s : State) (hq : q ≠ p) :
    inFlightGiven s (emptyBuffer p s) q false := by
  intro b x hx hreq
  rw [emptyBuffer_banks_eq]
  cases (s.transfer.get p).buffer.isFetching with
  | true => exact inFlightGiven_giveUp_other s (fun h => hq (Requester.transfer.inj h).symm) b x hx hreq
  | false => exact hx

/-! ### The notice of a lost extent -/

/-- The state in which a lost extent is looked for in the transfer in progress: cursor and buffer are gone. -/
def afterCursorAndBuffer (h : Fin 32) (p : PortId) (s : State) : State :=
  let u := s.transfer.get p
  let s := if u.cursor.map Cursor.handle = some h then s.setTransfer p { u with cursor := none } else s
  if u.buffer.handle? = some h then emptyBuffer p s else s

theorem loseExtent_eq (h : Fin 32) (v : Result) (p : PortId) (s : State) :
    loseExtent h v p s = match ((afterCursorAndBuffer h p s).transfer.get p).job with
      | some j =>
        if j.isRead && decide (j.handle = h) then endRead p v (afterCursorAndBuffer h p s)
        else .quiet (afterCursorAndBuffer h p s)
      | none => .quiet (afterCursorAndBuffer h p s) := rfl

theorem afterCursorAndBuffer_job (h : Fin 32) (p : PortId) (s : State) :
    (((afterCursorAndBuffer h p s).transfer.get p).job.any fun j => j.isRead && decide (j.handle = h)) =
      (s.transfer.get p).job.any fun j => j.isRead && decide (j.handle = h) := by
  have hbuffer : ∀ t : State, ((emptyBuffer p t).transfer.get p).job.any (fun j => j.isRead && decide (j.handle = h)) =
      (t.transfer.get p).job.any fun j => j.isRead && decide (j.handle = h) := fun t => by
    rw [emptyBuffer_unit]
    cases (t.transfer.get p).job <;> simp [standAlone_reads]
  have hcursor : ((if (s.transfer.get p).cursor.map Cursor.handle = some h then
      s.setTransfer p { s.transfer.get p with cursor := none } else s).transfer.get p).job =
      (s.transfer.get p).job := by
    split <;> simp [State.setTransfer]
  unfold afterCursorAndBuffer
  dsimp only
  split
  · rw [hbuffer, hcursor]
  · rw [hcursor]

theorem inFlightGiven_afterCursorAndBuffer (h : Fin 32) (p : PortId) (s : State) :
    inFlightGiven s (afterCursorAndBuffer h p s) p
      ((s.transfer.get p).buffer.isFetching && decide ((s.transfer.get p).buffer.handle? = some h)) := by
  obtain ⟨t, ht⟩ : ∃ t, (if (s.transfer.get p).cursor.map Cursor.handle = some h then
      s.setTransfer p { s.transfer.get p with cursor := none } else s) = t := ⟨_, rfl⟩
  have hbanks : t.banks = s.banks := by subst ht; split <;> rfl
  have hbuffer : (t.transfer.get p).buffer = (s.transfer.get p).buffer := by
    subst ht
    split <;> simp [State.setTransfer]
  unfold afterCursorAndBuffer
  dsimp only
  rw [ht]
  by_cases hhandle : (s.transfer.get p).buffer.handle? = some h
  · rw [if_pos hhandle, decide_eq_true hhandle, Bool.and_true]
    have hempty := (inFlightGiven_of_banks (q := p) hbanks).trans (inFlightGiven_emptyBuffer p t)
    rwa [hbuffer] at hempty
  · rw [if_neg hhandle, decide_eq_false hhandle, Bool.and_false]
    exact inFlightGiven_of_banks hbanks

theorem takenOnly_isSome (h : Fin 32) (v : Result) :
    (fun k => (takenOnly h v k).isSome) = fun k => decide (k = h) := by
  funext k
  by_cases hk : k = h <;> simp [takenOnly, hk]

theorem givesUp_takenOnly (u : TransferUnit) (h : Fin 32) (v : Result) :
    u.givesUp (fun k => (takenOnly h v k).isSome) =
      ((u.buffer.isFetching && decide (u.buffer.handle? = some h)) ||
        u.job.any fun j => j.isRead && decide (j.handle = h)) := by
  have hany : (u.buffer.handle?.any fun k => decide (k = h)) = decide (u.buffer.handle? = some h) := by
    cases u.buffer.handle? <;> simp
  have hread : ∀ k, (takenOnly h v k).isSome = decide (k = h) := congrFun (takenOnly_isSome h v)
  simp only [TransferUnit.givesUp, hread, hany]

/-- A port that is told of a lost extent loses it. -/
theorem loseExtent_loses (h : Fin 32) (v : Result) (p : PortId) (s : State) :
    Loses s (loseExtent h v p s) p (takenOnly h v) where
  unit := by rw [loseExtent_unit, losing_eq_losingAll _ h v]
  inFlight := by
    rw [givesUp_takenOnly, ← afterCursorAndBuffer_job, loseExtent_eq]
    have hfirst := inFlightGiven_afterCursorAndBuffer h p s
    split
    · rename_i j hj
      rw [hj, Option.any_some]
      split
      · rename_i hread
        rw [hread]
        exact hfirst.trans (inFlightGiven_giveUp _ p)
      · rename_i hread
        rw [Bool.not_eq_true] at hread
        rw [hread, Bool.or_false]
        exact hfirst
    · rename_i hj
      rw [hj, Option.any_none, Bool.or_false]
      exact hfirst
  answers := by
    have hanswer : (s.transfer.get p).endAnswer p (takenOnly h v) =
        if (s.transfer.get p).job.any fun j => j.isRead && decide (j.handle = h) then [.respond p v []] else [] := by
      rw [TransferUnit.endAnswer]
      cases hjob : (s.transfer.get p).job with
      | none => rfl
      | some j => cases hread : j.isRead <;> by_cases hh : j.handle = h <;> simp [hread, hh, takenOnly]
    rw [hanswer, ← afterCursorAndBuffer_job, loseExtent_eq]
    split
    · rename_i j hj
      rw [hj, Option.any_some]
      split
      · simp [answersTo, Act.sent, endRead_out]
      · rfl
    · rename_i hj
      rw [hj]
      rfl

/-- The others are spared. -/
theorem loseExtent_spares (h : Fin 32) (v : Result) {p : PortId} (s : State) (hq : q ≠ p) :
    Spares s (loseExtent h v p s) q where
  unit := loseExtent_other s hq
  inFlight := by
    have hfirst : inFlightGiven s (afterCursorAndBuffer h p s) q false := by
      obtain ⟨t, ht⟩ : ∃ t, (if (s.transfer.get p).cursor.map Cursor.handle = some h then
          s.setTransfer p { s.transfer.get p with cursor := none } else s) = t := ⟨_, rfl⟩
      have hbanks : t.banks = s.banks := by subst ht; split <;> rfl
      unfold afterCursorAndBuffer
      dsimp only
      rw [ht]
      split
      · exact (inFlightGiven_of_banks hbanks).trans (inFlightGiven_emptyBuffer_other t hq)
      · exact inFlightGiven_of_banks hbanks
    rw [loseExtent_eq]
    split
    · split
      · exact hfirst.trans (inFlightGiven_giveUp_other _ fun heq => hq (Requester.transfer.inj heq).symm)
      · exact hfirst
    · exact hfirst
  answers := by
    rw [loseExtent_eq]
    split
    · split
      · simp [answersTo, Act.sent, endRead_out, hq.symm]
      · rfl
    · rfl

/-! ### A run of notices -/

theorem Act.andThen_assoc (a : Act) (f g : State → Act) :
    (a.andThen f).andThen g = a.andThen fun s => (f s).andThen g := by
  simp [Act.andThen, List.append_assoc]

theorem Act.quiet_andThen (s : State) (f : State → Act) : (Act.quiet s).andThen f = f s := by
  simp [Act.andThen, Act.quiet]

theorem Act.forEach_eq_andThen {α : Type} (l : List α) (f : α → State → Act) (a : Act) :
    a.forEach l f = a.andThen fun s => (Act.quiet s).forEach l f := by
  induction l generalizing a with
  | nil => simp [Act.forEach, Act.andThen, Act.quiet]
  | cons x l ih =>
    calc (a.andThen (f x)).forEach l f
        = a.andThen fun s => (f x s).andThen fun u => (Act.quiet u).forEach l f := by rw [ih, Act.andThen_assoc]
      _ = a.andThen fun s => ((Act.quiet s).andThen (f x)).forEach l f := by
          congr 1
          funext s
          rw [ih, Act.quiet_andThen]

theorem Act.quiet_forEach_cons {α : Type} (s : State) (x : α) (l : List α) (f : α → State → Act) :
    (Act.quiet s).forEach (x :: l) f = (f x s).andThen fun u => (Act.quiet u).forEach l f := by
  show ((Act.quiet s).andThen (f x)).forEach l f = _
  rw [Act.forEach_eq_andThen, Act.quiet_andThen]

theorem firstRowOf_of_extents {s t : State} (h : t.extents = s.extents) : t.firstRowOf = s.firstRowOf := by
  funext k
  rw [State.firstRowOf, State.firstRowOf, State.extent, State.extent, h]

theorem noticeAll_loses (h : Fin 32) (v : Result) (q : PortId) (l : List PortId) (hl : l.Nodup) (s : State) :
    if q ∈ l then Loses s ((Act.quiet s).forEach l fun p => loseExtent h v p) q (takenOnly h v)
    else Spares s ((Act.quiet s).forEach l fun p => loseExtent h v p) q := by
  induction l generalizing s with
  | nil => exact .of_same rfl rfl
  | cons p l ih =>
    obtain ⟨hp, hl⟩ := List.nodup_cons.1 hl
    rw [Act.quiet_forEach_cons]
    have hrest := ih hl (loseExtent h v p s).st
    by_cases hq : q = p
    · subst hq
      rw [if_neg hp] at hrest
      rw [if_pos List.mem_cons_self]
      exact (loseExtent_loses h v q s).spared hrest
    · have hspares := loseExtent_spares h v s hq
      by_cases hmem : q ∈ l
      · rw [if_pos hmem] at hrest
        rw [if_pos (List.mem_cons_of_mem _ hmem)]
        exact hspares.loses hrest fun x _ => congrFun (firstRowOf_of_extents (loseExtent_extents h v p s)) x
      · rw [if_neg hmem] at hrest
        rw [if_neg (by simp [hq, hmem])]
        exact hspares.andThen hrest

theorem noticeFreed_loses (h : Fin 32) (q : PortId) (s : State) :
    Loses s (noticeFreed h s) q (takenOnly h .noObject) := by
  have hall := noticeAll_loses h .noObject q allPorts (by decide) s
  rwa [if_pos (mem_allPorts q)] at hall

/-! ### A freed extent -/

theorem giveUpClears_spares (h : Fin 32) (q : PortId) (l : List PortId) (s : State) :
    Spares s (.quiet (l.foldl (fun u p => giveUpClear u h p) s)) q := by
  induction l generalizing s with
  | nil => exact .of_same rfl rfl
  | cons p l ih =>
    have hone : Spares s (.quiet (giveUpClear s h p)) q := by
      unfold giveUpClear
      split
      · exact ⟨rfl, inFlightGiven_giveUp_other s nofun, rfl⟩
      · exact .of_same rfl rfl
    exact hone.andThen (f := fun u => .quiet (l.foldl (fun u p => giveUpClear u h p) u)) (ih (giveUpClear s h p))

theorem giveUpClears_extents (h : Fin 32) (l : List PortId) (s : State) :
    (l.foldl (fun u p => giveUpClear u h p) s).extents = s.extents := by
  induction l generalizing s with
  | nil => rfl
  | cons p l ih =>
    refine (ih (giveUpClear s h p)).trans ?_
    unfold giveUpClear
    split <;> rfl

/-- The state in which the ports are told that an extent was freed: its record and its clearing are gone. -/
def afterRecordGone (h : Fin 32) (s : State) : State :=
  (leaveClearLists (allPorts.foldl (fun s p => giveUpClear s h p) s) h).setExtent h none

theorem releaseExtent_eq {h : Fin 32} {s : State} {e : Extent} (he : s.extent h = some e) :
    releaseExtent h s = ((Act.quiet (afterRecordGone h s)).sendAll .extents (grantedPorts e)
      (.grantEnded h e.allocator)).andThen (noticeFreed h) := by
  rw [releaseExtent, he]
  rfl

theorem afterRecordGone_spares (h : Fin 32) (q : PortId) (s : State) :
    Spares s (.quiet (afterRecordGone h s)) q :=
  (giveUpClears_spares h q allPorts s).andThen (f := fun u => .quiet ((leaveClearLists u h).setExtent h none))
    (.of_same rfl rfl)

theorem afterRecordGone_firstRow (s : State) {h k : Fin 32} (hk : k ≠ h) :
    (afterRecordGone h s).firstRowOf k = s.firstRowOf k := by
  have hrecord : (afterRecordGone h s).extent k = s.extent k := by
    rw [afterRecordGone, State.setExtent_extent_other _ none hk]
    show (allPorts.foldl (fun s p => giveUpClear s h p) s).extents.records[k] = _
    rw [giveUpClears_extents]
    rfl
  rw [State.firstRowOf, hrecord, State.firstRowOf]

/-- A freed extent is lost to every port. -/
theorem releaseExtent_loses {h : Fin 32} {e : Extent} (he : s.extent h = some e) (q : PortId) :
    Loses s (releaseExtent h s) q (takenOnly h .noObject) := by
  rw [releaseExtent_eq he]
  refine ((afterRecordGone_spares h q s).sendAll _ _ _).loses (noticeFreed_loses h q _) fun x hx => ?_
  exact afterRecordGone_firstRow s fun heq => by simp [takenOnly, heq] at hx

/-! ### A revoked grant -/

theorem setGrant_spares (h : Fin 32) (p : PortId) (v : GrantState) (q : PortId) (s : State) :
    Spares s (.quiet (setGrant h p v s)) q := by
  obtain ⟨extents, hst⟩ := setGrant_frame h p v s
  rw [hst]
  exact .of_same rfl rfl

variable {h : Fin 32} {g p : PortId} {e : Extent}

theorem revokeGrant_ends (he : s.extent h = some e) (hgrant : e.grants.get p = .granted) (hcount : e.counts.get p = 0) :
    revokeGrant h g p s = ((Act.quiet (setGrant h p .none s)).send .extents (.event p (.grantEnded h g))).andThen
      (noticeGrantNone h p) := by
  rw [revokeGrant, he]
  simp only [hgrant]
  rw [if_pos hcount]

theorem revokeGrant_withdraws (he : s.extent h = some e) (hgrant : e.grants.get p = .granted)
    (hcount : e.counts.get p ≠ 0) :
    revokeGrant h g p s =
      (Act.quiet (setGrant h p .withdrawing s)).send .extents (.event p (.grantWithdrawn h g)) := by
  rw [revokeGrant, he]
  simp only [hgrant]
  rw [if_neg hcount]

theorem revokeGrant_idle (he : s.extent h = some e) (hgrant : e.grants.get p ≠ .granted) :
    revokeGrant h g p s = .quiet s := by
  rw [revokeGrant, he]
  cases hg : e.grants.get p with
  | granted => exact absurd hg hgrant
  | withdrawing => simp only [hg]
  | none => simp only [hg]

theorem revokeGrant_loses (he : s.extent h = some e) (hgrant : e.grants.get p = .granted)
    (hcount : e.counts.get p = 0) : Loses s (revokeGrant h g p s) p (takenOnly h .notGranted) := by
  rw [revokeGrant_ends he hgrant hcount]
  exact ((setGrant_spares h p .none p s).send_event _ _ _).loses (loseExtent_loses h .notGranted p _) fun x _ =>
    congrFun (setGrant_firstRow h p .none s) x

theorem revokeGrant_spares (he : s.extent h = some e)
    (hq : q ≠ p ∨ ¬(e.grants.get p = .granted ∧ e.counts.get p = 0)) : Spares s (revokeGrant h g p s) q := by
  by_cases hgrant : e.grants.get p = .granted
  · by_cases hcount : e.counts.get p = 0
    · rw [revokeGrant_ends he hgrant hcount]
      exact ((setGrant_spares h p .none q s).send_event _ _ _).andThen
        (loseExtent_spares h .notGranted _ (hq.resolve_right fun hnot => hnot ⟨hgrant, hcount⟩))
    · rw [revokeGrant_withdraws he hgrant hcount]
      exact (setGrant_spares h p .withdrawing q s).send_event _ _ _
  · rw [revokeGrant_idle he hgrant]
    exact .of_same rfl rfl

end Sys2Proof.Machine
end

section
/-! SUPPORT. The departure of the owner of an extent: the records it leaves, and what it takes from each port (R108,
R111, R115). -/

set_option Elab.async false

namespace Sys2Proof.Machine

variable {s : State} {h : Fin 32} {g p q : PortId} {e : Extent}

/-! ### Records -/

/-- The grant of a port after it is revoked. -/
def revokedGrant (e : Extent) (p : PortId) : GrantState :=
  if e.grants.get p = .granted then if e.counts.get p = 0 then .none else .withdrawing else e.grants.get p

theorem setExtent_same (he : s.extent h = some e) : s.setExtent h (some e) = s := by
  have hrecords : s.extents.records.set h (some e) = s.extents.records := by
    have hget : s.extents.records[h.val] = some e := he
    rw [← hget, Vector.set_getElem_self]
  rw [State.setExtent, hrecords]

theorem setExtent_setExtent (s : State) (h : Fin 32) (x y : Option Extent) :
    (s.setExtent h x).setExtent h y = s.setExtent h y := by
  simp only [State.setExtent, Vector.set_set]

theorem setExtent_extents_congr {t u : State} (hext : t.extents = u.extents) (h : Fin 32) (x : Option Extent) :
    (t.setExtent h x).extents = (u.setExtent h x).extents := by
  rw [State.setExtent_extents, State.setExtent_extents, hext]

theorem setGrant_eq (he : s.extent h = some e) (v : GrantState) :
    setGrant h p v s = s.setExtent h (some { e with grants := e.grants.set p v }) := by
  rw [setGrant, he]

/-- Of the records a revocation changes the target's grant alone. -/
theorem revokeGrant_extents (he : s.extent h = some e) :
    (revokeGrant h g p s).st.extents =
      (s.setExtent h (some { e with grants := e.grants.set p (revokedGrant e p) })).extents := by
  by_cases hgrant : e.grants.get p = .granted
  · by_cases hcount : e.counts.get p = 0
    · rw [revokeGrant_ends he hgrant hcount, revokedGrant, if_pos hgrant, if_pos hcount, ← setGrant_eq he]
      exact loseExtent_extents h .notGranted p _
    · rw [revokeGrant_withdraws he hgrant hcount, revokedGrant, if_pos hgrant, if_neg hcount, ← setGrant_eq he]
      rfl
  · rw [revokeGrant_idle he hgrant, revokedGrant, if_neg hgrant, PerPort.set_get_self, setExtent_same he]
    rfl

/-- The record after the grants of the ports `l` are revoked. -/
def revokedAll (e : Extent) (l : List PortId) : Extent :=
  { e with grants := PerPort.tab fun q => if q ∈ l then revokedGrant e q else e.grants.get q }

theorem revokedAll_cons (e : Extent) {l : List PortId} (hp : p ∉ l) :
    revokedAll { e with grants := e.grants.set p (revokedGrant e p) } l = revokedAll e (p :: l) := by
  unfold revokedAll
  congr 1
  refine PerPort.ext_get fun q => ?_
  rw [PerPort.get_tab, PerPort.get_tab]
  by_cases hq : q = p
  · subst hq
    rw [if_neg hp, if_pos List.mem_cons_self, PerPort.get_set_same]
  · simp only [List.mem_cons, hq, false_or, revokedGrant, PerPort.get_set_other _ _ hq]

theorem revokeAll_extents (l : List PortId) (hl : l.Nodup) (he : s.extent h = some e) :
    ((Act.quiet s).forEach l fun q => revokeGrant h g q).st.extents =
      (s.setExtent h (some (revokedAll e l))).extents := by
  induction l generalizing s e with
  | nil =>
    have htab : (PerPort.tab fun q => e.grants.get q) = e.grants := PerPort.ext_get fun q => PerPort.get_tab _ q
    have hsame : revokedAll e [] = e := by simp [revokedAll, htab]
    rw [hsame, setExtent_same he]
    rfl
  | cons p l ih =>
    obtain ⟨hp, hl⟩ := List.nodup_cons.1 hl
    rw [Act.quiet_forEach_cons, Act.andThen_st]
    have hone := revokeGrant_extents (g := g) (p := p) he
    have hrecord : (revokeGrant h g p s).st.extent h =
        some { e with grants := e.grants.set p (revokedGrant e p) } := by
      rw [State.extent, hone]
      exact State.setExtent_extent_same s h _
    rw [ih hl hrecord, revokedAll_cons e hp, setExtent_extents_congr hone, setExtent_setExtent]

/-- The record of an extent after its owner's departure, while a port still draws from it. -/
def orphaned (p : PortId) (e : Extent) : Extent :=
  { e with
    owner := none
    grants := PerPort.tab fun q =>
      if q = p then (if e.counts.get q = 0 then .none else .withdrawing) else revokedGrant e q }

/-- The extent manager's records after the grants of an orphan are revoked. -/
def afterRevokes (p : PortId) (h : Fin 32) (e : Extent) (s : State) : Act :=
  ((Act.quiet (s.setExtent h (some { e with owner := none }))).forEach (otherPorts p) fun q =>
    revokeGrant h p q).change (setGrant h p (if e.counts.get p = 0 then .none else .withdrawing))

theorem orphanExtent_eq (he : s.extent h = some e) (howner : e.owner = some p) :
    orphanExtent p h s = (afterRevokes p h e s).andThen (releaseIfUnreferenced h) := by
  rw [orphanExtent, he]
  exact if_pos howner

theorem orphanExtent_idle (hother : ∀ e, s.extent h = some e → e.owner ≠ some p) : orphanExtent p h s = .quiet s := by
  rw [orphanExtent]
  cases he : s.extent h with
  | none => rfl
  | some e => exact if_neg (hother e he)

theorem afterRevokes_extents (p : PortId) (h : Fin 32) (e : Extent) (s : State) :
    (afterRevokes p h e s).st.extents = (s.setExtent h (some (orphaned p e))).extents := by
  have hrecord : (s.setExtent h (some { e with owner := none })).extent h = some { e with owner := none } :=
    State.setExtent_extent_same s h _
  have hall := revokeAll_extents (g := p) (otherPorts p) (by cases p <;> decide) hrecord
  rw [setExtent_setExtent] at hall
  have hrevoked : ((Act.quiet (s.setExtent h (some { e with owner := none }))).forEach (otherPorts p) fun q =>
      revokeGrant h p q).st.extent h = some (revokedAll { e with owner := none } (otherPorts p)) := by
    rw [State.extent, hall]
    exact State.setExtent_extent_same s h _
  rw [afterRevokes, Act.change_st, setGrant_eq hrevoked]
  have horphan : { revokedAll { e with owner := none } (otherPorts p) with
      grants := (revokedAll { e with owner := none } (otherPorts p)).grants.set p
        (if e.counts.get p = 0 then .none else .withdrawing) } = orphaned p e := by
    simp only [revokedAll, orphaned, Extent.mk.injEq, true_and, and_true]
    refine PerPort.ext_get fun q => ?_
    by_cases hq : q = p
    · subst hq
      simp
    · simp [PerPort.get_set_other _ _ hq, hq, mem_otherPorts, revokedGrant]
  rw [horphan, setExtent_extents_congr hall, setExtent_setExtent]

theorem afterRevokes_extent (p : PortId) (h k : Fin 32) (e : Extent) (s : State) :
    (afterRevokes p h e s).st.extent k = if k = h then some (orphaned p e) else s.extent k := by
  rw [State.extent, afterRevokes_extents]
  by_cases hk : k = h
  · subst hk
    rw [if_pos rfl]
    exact State.setExtent_extent_same s k _
  · rw [if_neg hk]
    exact State.setExtent_extent_other s _ hk

theorem orphaned_unreferenced (p : PortId) (e : Extent) : (orphaned p e).unreferenced = e.unreferenced := rfl

theorem releaseIfUnreferenced_orphan (hrecord : s.extent h = some e) (howner : e.owner = none) :
    releaseIfUnreferenced h s = if e.unreferenced then releaseExtent h s else .quiet s := by
  rw [releaseIfUnreferenced, hrecord]
  simp [howner]

/-- The records after a port's departure from one extent. -/
theorem orphanExtent_extent (p : PortId) (h k : Fin 32) (s : State) :
    (orphanExtent p h s).st.extent k =
      if k = h then (s.extent h).bind fun e =>
        if e.owner = some p then if e.unreferenced then none else some (orphaned p e) else some e
      else s.extent k := by
  by_cases hother : ∀ e, s.extent h = some e → e.owner ≠ some p
  · rw [orphanExtent_idle hother]
    split
    · rename_i hk
      subst hk
      cases he : s.extent k with
      | none => exact he
      | some e => simp [he, hother e he]
    · rfl
  · obtain ⟨e, he, howner⟩ : ∃ e, s.extent h = some e ∧ e.owner = some p := by
      simpa using hother
    have hrecord : (afterRevokes p h e s).st.extent h = some (orphaned p e) := by
      rw [afterRevokes_extent, if_pos rfl]
    rw [orphanExtent_eq he howner, Act.andThen_st, releaseIfUnreferenced_orphan hrecord rfl, orphaned_unreferenced,
      he]
    cases hfree : e.unreferenced with
    | true =>
      rw [if_pos rfl, releaseExtent_extent hrecord, afterRevokes_extent]
      by_cases hk : k = h <;> simp [hk, howner, hfree]
    | false =>
      simp only [Bool.false_eq_true, if_false, Act.quiet_st, afterRevokes_extent, Option.bind_some, howner, if_true,
        hfree]

/-! ### What each port loses -/

/-- The target of a revocation loses the extent at once. -/
def endsAtOnce (e : Extent) (q : PortId) : Bool :=
  decide (e.grants.get q = .granted) && decide (e.counts.get q = 0)

theorem setExtent_firstRow {v : Extent} (he : s.extent h = some e) (hrow : v.firstRow = e.firstRow) :
    (s.setExtent h (some v)).firstRowOf = s.firstRowOf := by
  funext k
  rw [State.firstRowOf, State.firstRowOf]
  by_cases hk : k = h
  · subst hk
    rw [State.setExtent_extent_same, he]
    exact hrow
  · rw [State.setExtent_extent_other s _ hk]

/-- Revocations of a run of ports take the extent from those whose grants end at once, and from no other. -/
theorem revokeAll_loses (q : PortId) (l : List PortId) (hl : l.Nodup) (he : s.extent h = some e) :
    if q ∈ l ∧ endsAtOnce e q = true then
      Loses s ((Act.quiet s).forEach l fun q => revokeGrant h g q) q (takenOnly h .notGranted)
    else Spares s ((Act.quiet s).forEach l fun q => revokeGrant h g q) q := by
  induction l generalizing s e with
  | nil => exact .of_same rfl rfl
  | cons p l ih =>
    obtain ⟨hp, hl⟩ := List.nodup_cons.1 hl
    have hextents := revokeGrant_extents (g := g) (p := p) he
    have hrecord : (revokeGrant h g p s).st.extent h =
        some { e with grants := e.grants.set p (revokedGrant e p) } := by
      rw [State.extent, hextents]
      exact State.setExtent_extent_same s h _
    have hrows : (revokeGrant h g p s).st.firstRowOf = s.firstRowOf :=
      (firstRowOf_of_extents hextents).trans (setExtent_firstRow he rfl)
    have hrest := ih hl hrecord
    rw [Act.quiet_forEach_cons]
    by_cases hq : q = p
    · subst hq
      rw [if_neg fun hmem => hp hmem.1] at hrest
      by_cases hends : endsAtOnce e q = true
      · rw [if_pos ⟨List.mem_cons_self, hends⟩]
        obtain ⟨hgrant, hcount⟩ : e.grants.get q = .granted ∧ e.counts.get q = 0 := by simpa [endsAtOnce] using hends
        exact (revokeGrant_loses he hgrant hcount).spared hrest
      · rw [if_neg fun hboth => hends hboth.2]
        exact (revokeGrant_spares he (.inr (by simpa [endsAtOnce] using hends))).andThen hrest
    · have hsame : endsAtOnce { e with grants := e.grants.set p (revokedGrant e p) } q = endsAtOnce e q := by
        simp only [endsAtOnce, PerPort.get_set_other _ _ hq]
      have hspares : Spares s (revokeGrant h g p s) q := revokeGrant_spares he (.inl hq)
      simp only [List.mem_cons, hq, false_or, hsame] at hrest ⊢
      split
      · rename_i hlost
        rw [if_pos hlost] at hrest
        exact hspares.loses hrest fun x _ => congrFun hrows x
      · rename_i hlost
        rw [if_neg hlost] at hrest
        exact hspares.andThen hrest

/-- What the departure of port `p` takes from port `q` at one extent. -/
def takenAt (s : State) (p q : PortId) (h k : Fin 32) : Option Result :=
  if k = h then takenAtDeparture s p q h else none

theorem Act.change_eq_andThen (a : Act) (f : State → State) : a.change f = a.andThen fun s => .quiet (f s) := by
  simp [Act.change, Act.andThen, Act.quiet]

theorem afterRevokes_loses (q : PortId) (he : s.extent h = some e) :
    if q ≠ p ∧ endsAtOnce e q = true then Loses s (afterRevokes p h e s) q (takenOnly h .notGranted)
    else Spares s (afterRevokes p h e s) q := by
  have hfirst : Spares s (.quiet (s.setExtent h (some { e with owner := none }))) q := .of_same rfl rfl
  have hrows : (s.setExtent h (some { e with owner := none })).firstRowOf = s.firstRowOf := setExtent_firstRow he rfl
  have hall := revokeAll_loses (g := p) q (otherPorts p) (by cases p <;> decide)
    (State.setExtent_extent_same s h (some { e with owner := none }))
  have hlast : ∀ u, Spares u (.quiet (setGrant h p (if e.counts.get p = 0 then .none else .withdrawing) u)) q :=
    fun u => setGrant_spares h p _ q u
  rw [afterRevokes, Act.change_eq_andThen, Act.forEach_eq_andThen]
  split
  · rename_i hlost
    rw [if_pos ⟨mem_otherPorts.2 hlost.1, hlost.2⟩] at hall
    exact (hfirst.loses (f := fun u => (Act.quiet u).forEach (otherPorts p) fun q => revokeGrant h p q) hall
      fun x _ => congrFun hrows x).spared (hlast _)
  · rename_i hlost
    rw [if_neg fun hboth => hlost ⟨mem_otherPorts.1 hboth.1, hboth.2⟩] at hall
    exact (hfirst.andThen (f := fun u => (Act.quiet u).forEach (otherPorts p) fun q => revokeGrant h p q)
      hall).andThen (hlast _)

theorem takenAtDeparture_owned (he : s.extent h = some e) (howner : e.owner = some p) :
    takenAtDeparture s p q h = if q ≠ p ∧ endsAtOnce e q = true then some .notGranted
      else if e.unreferenced = true then some .noObject else none := by
  have hfree : (∀ v ∈ allPorts, e.counts.get v = 0) ↔ e.unreferenced = true := by
    simp [Extent.unreferenced]
  simp only [takenAtDeparture, he, howner, ne_eq, not_true, if_false, endsAtOnce, Bool.and_eq_true, decide_eq_true_eq,
    hfree]

theorem takenAtDeparture_idle (hother : ∀ e, s.extent h = some e → e.owner ≠ some p) :
    takenAtDeparture s p q h = none := by
  unfold takenAtDeparture
  cases he : s.extent h with
  | none => rfl
  | some e => exact if_pos (hother e he)

theorem takenThen_only (h : Fin 32) (v w : Result) : takenThen (takenOnly h v) (takenOnly h w) = takenOnly h v := by
  funext k
  by_cases hk : k = h <;> simp [takenThen, takenOnly, hk]

theorem takenAt_eq_takenOnly {v : Result} (htaken : takenAtDeparture s p q h = some v) :
    takenAt s p q h = takenOnly h v := by
  funext k
  rw [takenAt, htaken, takenOnly]

theorem takenAt_eq_none (htaken : takenAtDeparture s p q h = none) : takenAt s p q h = fun _ => none := by
  funext k
  rw [takenAt, htaken, ite_self]

/-- The departure of port `p` from one extent takes it from port `q` as `takenAtDeparture` says. -/
theorem orphanExtent_loses (p q : PortId) (h : Fin 32) (s : State) :
    Loses s (orphanExtent p h s) q (takenAt s p q h) := by
  by_cases hother : ∀ e, s.extent h = some e → e.owner ≠ some p
  · rw [orphanExtent_idle hother, takenAt_eq_none (takenAtDeparture_idle hother)]
    exact Spares.loses_none (.of_same rfl rfl)
  · obtain ⟨e, he, howner⟩ : ∃ e, s.extent h = some e ∧ e.owner = some p := by
      simpa using hother
    have hrecord : (afterRevokes p h e s).st.extent h = some (orphaned p e) := by
      rw [afterRevokes_extent, if_pos rfl]
    have hrows : (afterRevokes p h e s).st.firstRowOf = s.firstRowOf :=
      (firstRowOf_of_extents (afterRevokes_extents p h e s)).trans (setExtent_firstRow he rfl)
    have hrevokes := afterRevokes_loses (p := p) q he
    have htaken := takenAtDeparture_owned (q := q) he howner
    have hrelease := releaseExtent_loses hrecord q
    have hend := releaseIfUnreferenced_orphan hrecord rfl
    rw [orphanExtent_eq he howner]
    by_cases hlost : q ≠ p ∧ endsAtOnce e q = true
    · rw [if_pos hlost] at hrevokes htaken
      rw [takenAt_eq_takenOnly htaken]
      cases hfree : e.unreferenced with
      | true =>
        rw [orphaned_unreferenced, hfree, if_pos rfl] at hend
        rw [← hend] at hrelease
        have hboth := hrevokes.andThen hrelease fun x _ _ => congrFun hrows x
        rwa [takenThen_only] at hboth
      | false =>
        rw [orphaned_unreferenced, hfree, if_neg Bool.false_ne_true] at hend
        exact hrevokes.spared (by rw [hend]; exact .of_same rfl rfl)
    · rw [if_neg hlost] at hrevokes htaken
      cases hfree : e.unreferenced with
      | true =>
        rw [hfree, if_pos rfl] at htaken
        rw [orphaned_unreferenced, hfree, if_pos rfl] at hend
        rw [← hend] at hrelease
        rw [takenAt_eq_takenOnly htaken]
        exact hrevokes.loses hrelease fun x _ => congrFun hrows x
      | false =>
        rw [hfree, if_neg Bool.false_ne_true] at htaken
        rw [orphaned_unreferenced, hfree, if_neg Bool.false_ne_true] at hend
        rw [takenAt_eq_none htaken]
        exact (hrevokes.andThen (by rw [hend]; exact .of_same rfl rfl)).loses_none

theorem takenAtDeparture_congr {t : State} (hrecord : t.extent h = s.extent h) :
    takenAtDeparture t p q h = takenAtDeparture s p q h := by
  rw [takenAtDeparture, takenAtDeparture, hrecord]

theorem orphanExtent_extent_other {k : Fin 32} (hk : k ≠ h) : (orphanExtent p h s).st.extent k = s.extent k := by
  rw [orphanExtent_extent, if_neg hk]

/-- A row is that of before where the extent is not taken. -/
theorem orphanExtent_firstRow {k : Fin 32} (hk : takenAt s p q h k = none) :
    (orphanExtent p h s).st.firstRowOf k = s.firstRowOf k := by
  rw [State.firstRowOf, State.firstRowOf, orphanExtent_extent]
  split
  · rename_i hkh
    subst hkh
    rw [takenAt, if_pos rfl] at hk
    cases he : s.extent k with
    | none => rfl
    | some e =>
      by_cases howner : e.owner = some p
      · rw [takenAtDeparture_owned he howner] at hk
        have hfree : e.unreferenced = false := by
          split at hk
          · cases hk
          · simpa using hk
        simp [howner, hfree, orphaned]
      · simp [howner]
  · rfl

/-- The departure of port `p` from a run of extents. -/
theorem orphanAll_loses (p q : PortId) (l : List (Fin 32)) (hl : l.Nodup) (s : State) :
    Loses s ((Act.quiet s).forEach l fun h => orphanExtent p h) q
      fun k => if k ∈ l then takenAtDeparture s p q k else none := by
  induction l generalizing s with
  | nil => exact Spares.loses_none (.of_same rfl rfl)
  | cons h l ih =>
    obtain ⟨hh, hl⟩ := List.nodup_cons.1 hl
    have hrest := ih hl (orphanExtent p h s).st
    have htaken : takenThen (takenAt s p q h)
        (fun k => if k ∈ l then takenAtDeparture (orphanExtent p h s).st p q k else none) =
        fun k => if k ∈ h :: l then takenAtDeparture s p q k else none := by
      funext k
      by_cases hk : k = h
      · subst hk
        simp [takenThen, takenAt, hh]
      · have hsame : takenAtDeparture (orphanExtent p h s).st p q k = takenAtDeparture s p q k :=
          takenAtDeparture_congr (orphanExtent_extent_other hk)
        simp [takenThen, takenAt, hk, hsame]
    rw [Act.quiet_forEach_cons, ← htaken]
    exact (orphanExtent_loses p q h s).andThen hrest fun x hx _ => orphanExtent_firstRow hx

theorem orphanExtents_loses (p q : PortId) (s : State) :
    Loses s (orphanExtents p s) q (takenAtDeparture s p q) := by
  have hall := orphanAll_loses p q (List.finRange 32) (List.nodup_finRange 32) s
  simp only [List.mem_finRange, if_true] at hall
  exact hall

end Sys2Proof.Machine
end

section
/-! SUPPORT. What the ports are sent with a lost extent, and how they and their transfer units stand once it arrived. -/

set_option Elab.async false

namespace Sys2Proof.Machine

variable {s t : State} {a : Act} {h : Fin 32} {q : PortId}

/-! ### Messages -/

/-- The action sends answers alone. -/
def Act.onlyAnswers (a : Act) : Prop := ∀ m ∈ a.out, ∃ p v payload, m = (.response, .respond p v payload)

theorem Act.onlyAnswers_quiet (s : State) : (Act.quiet s).onlyAnswers := nofun

theorem Act.onlyAnswers.andThen {f : State → Act} (ha : a.onlyAnswers) (hf : (f a.st).onlyAnswers) :
    (a.andThen f).onlyAnswers := by
  intro m hm
  rw [Act.andThen_out, List.mem_append] at hm
  exact hm.elim (ha m) (hf m)

theorem loseExtent_onlyAnswers (h : Fin 32) (v : Result) (p : PortId) (s : State) :
    (loseExtent h v p s).onlyAnswers := by
  have hend : ∀ u, (endRead p v u).onlyAnswers := fun u m hm => by
    rw [endRead_out, List.mem_singleton] at hm
    exact ⟨p, v, [], hm⟩
  rw [loseExtent_eq]
  split
  · split
    · exact hend _
    · exact Act.onlyAnswers_quiet _
  · exact Act.onlyAnswers_quiet _

theorem noticeFreed_onlyAnswers (h : Fin 32) (s : State) : (noticeFreed h s).onlyAnswers :=
  Act.forEach_keeps allPorts (Act.onlyAnswers_quiet s) fun p _ _ hb => hb.andThen (loseExtent_onlyAnswers h _ p _)

theorem Act.onlyAnswers.filter_goesTo (ha : a.onlyAnswers) (q : PortId) :
    (a.out.map Prod.snd).filter (Msg.goesTo q) = answersTo q a := by
  obtain ⟨st, out⟩ := a
  unfold Act.onlyAnswers at ha
  simp only [answersTo, Act.sent] at ha ⊢
  have hsent : out.filter (fun m => decide (m.1 = .response)) = out :=
    List.filter_eq_self.2 fun m hm => by
      obtain ⟨p, v, payload, rfl⟩ := ha m hm
      rfl
  rw [hsent]
  refine List.filter_congr fun m hm => ?_
  obtain ⟨x, hx, rfl⟩ := List.mem_map.1 hm
  obtain ⟨p, v, payload, rfl⟩ := ha x hx
  rfl

theorem answersTo_sendAll (q : PortId) (s : State) (l : List PortId) (o : Origin) (e : Event) :
    answersTo q ((Act.quiet s).sendAll o l e) = [] :=
  ((Spares.of_same rfl rfl : Spares s (.quiet s) q).sendAll o l e).answers

theorem mem_grantedPorts {e : Extent} : q ∈ grantedPorts e ↔ e.grants.get q = .granted := by
  simp [grantedPorts]

/-- What a port is sent when an extent is freed: GRANT_ENDED as a GRANTED grantee, and the answer to its Read. -/
theorem releaseExtent_goesTo {e : Extent} (he : s.extent h = some e) (q : PortId) :
    ((releaseExtent h s).out.map Prod.snd).filter (Msg.goesTo q) =
      (if e.grants.get q = .granted then some (Msg.event q (.grantEnded h e.allocator)) else none).toList ++
        (s.transfer.get q).endAnswer q (takenOnly h .noObject) := by
  have hanswers := (releaseExtent_loses he q).answers
  have hnodup : (grantedPorts e).Nodup := (by decide : allPorts.Nodup).filter _
  rw [releaseExtent_eq he] at hanswers ⊢
  rw [answersTo_andThen, answersTo_sendAll, List.nil_append] at hanswers
  rw [Act.andThen_out, List.map_append, List.filter_append, (noticeFreed_onlyAnswers h _).filter_goesTo, hanswers]
  congr 1
  rw [Act.sendAll_out, Act.quiet_out, List.nil_append, List.map_map]
  show ((grantedPorts e).map fun v => Msg.event v (.grantEnded h e.allocator)).filter _ = _
  rw [filter_goesTo_events hnodup]
  simp only [mem_grantedPorts]

/-! ### A port after the messages of a loss arrived -/

theorem endAnswer_readInProgress (s : State) (q : PortId) (h : Fin 32) (v : Result) :
    (s.transfer.get q).endAnswer q (takenOnly h v) = if readInProgress s q h then [.respond q v []] else [] := by
  rw [TransferUnit.endAnswer, readInProgress]
  cases (s.transfer.get q).job with
  | none => rfl
  | some j => cases hread : j.isRead <;> by_cases hh : j.handle = h <;> simp [hread, hh, takenOnly]

theorem takeResponse_of_request {c : PortController} {r : Request} (hhead : c.requests.head? = some r) (v : Result)
    (payload : List Byte) : c.takeResponse v payload =
      { c with
        requests := c.requests.tail, executing := false, discard := false
        outbound := if c.discard then c.outbound else c.outbound ++ [.response r.tag v payload] } := by
  obtain ⟨rest, hrequests⟩ := List.head?_eq_some_iff.1 hhead
  simp [PortController.takeResponse, hrequests]

/-- A port that is sent an event, if any, and the answer to its Read of the extent, if one is in progress. -/
theorem portToldOfLoss_of {v : Result} {event : Option Event} (hend : a.endsNoSession)
    (hmsgs : (a.out.map Prod.snd).filter (Msg.goesTo q) =
      (event.map (Msg.event q)).toList ++ (s.transfer.get q).endAnswer q (takenOnly h v))
    (hports : a.st.ports.get q = s.ports.get q) (hsession : a.st.session = s.session)
    (ht : t.ports = a.settle.ports) : portToldOfLoss s t q h v event := by
  rw [endAnswer_readInProgress] at hmsgs
  refine ⟨fun hread => ?_, fun hread r hhead => ?_⟩
  · rw [hread, if_neg Bool.false_ne_true, List.append_nil] at hmsgs
    rw [ht, settle_port_of_single hend hmsgs, hsession, hports]
    cases event <;> rfl
  · rw [hread, if_pos rfl] at hmsgs
    cases event with
    | none =>
      rw [ht, settle_port_of_single hend (m := some (.respond q v [])) hmsgs, hports]
      exact .inl (takeResponse_of_request hhead v [])
    | some e =>
      have hpair := settle_port_of_pair hend hmsgs
      have hrequests : ((if (s.session.records.get q).takesEvents then (s.ports.get q).takeEvent e
          else s.ports.get q).requests.head?) = some r := by
        split
        · rw [(takeEvent_keeps _ e).1]
          exact hhead
        · exact hhead
      simp only [PortController.afterMsg, hsession, hports] at hpair
      rw [takeResponse_of_request hhead, takeResponse_of_request hrequests] at hpair
      rw [ht]
      exact hpair.symm

/-! ### A transfer unit after a loss -/

/-- A transfer unit after the loss, its accesses as far as the decisions of the idle banks have brought them. -/
theorem unitLoses_of_loses {v : Result} (hloses : Loses s a q (takenOnly h v))
    (hunit : sameWork (a.st.transfer.get q) (t.transfer.get q))
    (hbanks : ∀ b x, (a.st.banks.get b).inFlight = some x → (t.banks.get b).inFlight = some x) :
    unitLoses s t q h := by
  obtain ⟨hcursor, hhandle, -, -, hjob⟩ := hunit
  rw [hloses.unit, ← losing_eq_losingAll] at hcursor hhandle hjob
  refine ⟨hcursor, ?_, fun hread => ?_, fun j hj hnot => ?_, fun b x hx hreq => ?_⟩
  · rw [hhandle]
    simp only [TransferUnit.losing]
    split
    · nofun
    · assumption
  · obtain ⟨j, hj, hboth⟩ : ∃ j, (s.transfer.get q).job = some j ∧ (j.isRead && decide (j.handle = h)) = true :=
      (Option.any_eq_true _ _).1 hread |> fun ⟨j, hj, hp⟩ => ⟨j, hj, hp⟩
    simp only [TransferUnit.losing, hj, Option.bind_some, hboth, if_true, Option.map_none] at hjob
    exact Option.map_eq_none_iff.1 hjob
  · have hstays : ((s.transfer.get q).losing h s.firstRowOf).job = some j := by
      simp [TransferUnit.losing, hj, hnot, standAlone_of_not_isRead hnot]
    rw [hstays, Option.map_some] at hjob
    obtain ⟨k, hk, hparts⟩ := Option.map_eq_some_iff.1 hjob
    rw [hk, Option.map_some]
    have hsame := congrArg (fun x : Job => { x with parts := j.parts }) hparts
    exact congrArg some hsame
  · have hgiven := hbanks b _ (hloses.inFlight b x hx hreq)
    rw [givesUp_takenOnly] at hgiven
    rw [hgiven, readInProgress, fetchesFrom, Bool.or_comm]

end Sys2Proof.Machine
end

section
/-! SUPPORT. The requests on a port's own extent: their rows, their checks and what Free Extent and Revoke leave. -/

set_option Elab.async false

namespace Sys2Proof.Machine

variable {p q : PortId} {s : State} {r : Request} {h : Fin 32} {e : Extent}

/-! ### Rows -/

theorem exec_freeExtent (hfor : asksFor s p r 0x19 1 = true) :
    exec (.freeExtent p) s = .next (freeExtentBody p r.payload s).settleAndArbitrate :=
  congrArg Host.Outcome.next (serve_asksFor .joinedOnly (freeExtentBody p) Act.settleAndArbitrate hfor (by decide))

theorem exec_grant (hfor : asksFor s p r 0x1A 2 = true) :
    exec (.grant p) s = .next (grantBody p r.payload s).settle :=
  congrArg Host.Outcome.next (serve_asksFor .joinedOnly (grantBody p) Act.settle hfor (by decide))

theorem exec_revoke (hfor : asksFor s p r 0x1B 2 = true) :
    exec (.revoke p) s = .next (revokeBody p r.payload s).settleAndArbitrate :=
  congrArg Host.Outcome.next (serve_asksFor .joinedOnly (revokeBody p) Act.settleAndArbitrate hfor (by decide))

theorem exec_mend (hfor : asksFor s p r 0x1C 1 = true) :
    exec (.mend p) s = .next (mendBody p r.payload s).settle :=
  congrArg Host.Outcome.next (serve_asksFor .joinedOnly (mendBody p) Act.settle hfor (by decide))

/-! ### Checks -/

section
variable {body : Fin 32 → Extent → Act} {v : Byte} {rest : List Byte}

theorem onOwnExtent_field (hv : 32 ≤ v.toNat) : onOwnExtent p (v :: rest) s body = answer p .field [] s := by
  simp only [onOwnExtent, fieldByte_zero, below_eq_none hv]

theorem onOwnExtent_noObject (hnone : s.extent h = none) :
    onOwnExtent p (byteOf h.val :: rest) s body = answer p .noObject [] s := by
  simp only [onOwnExtent, fieldByte_zero, below_byteOf h (by decide), hnone]

theorem onOwnExtent_notOwner (he : s.extent h = some e) (howner : e.owner ≠ some p) :
    onOwnExtent p (byteOf h.val :: rest) s body = answer p .notOwner [] s := by
  simp only [onOwnExtent, fieldByte_zero, below_byteOf h (by decide), he, if_neg howner]

theorem onOwnExtent_owned (he : s.extent h = some e) (howner : e.owner = some p) :
    onOwnExtent p (byteOf h.val :: rest) s body = body h e := by
  simp only [onOwnExtent, fieldByte_zero, below_byteOf h (by decide), he, if_pos howner]

variable {port : Fin 32 → Extent → PortId → Act}

theorem decodePort_encodePort (q : PortId) : decodePort (encodePort q).toNat = some q := by
  cases q <;> rfl

theorem decodePort_eq_none {n : Nat} (hn : 4 ≤ n) : decodePort n = none := by
  match n, hn with
  | n + 4, _ => rfl

theorem decodePort_of_lt {n : Nat} (hn : n < 4) : ∃ q, decodePort n = some q := by
  match n, hn with
  | 0, _ => exact ⟨.h0, rfl⟩
  | 1, _ => exact ⟨.h1, rfl⟩
  | 2, _ => exact ⟨.h2, rfl⟩
  | 3, _ => exact ⟨.h3, rfl⟩

theorem onOwnExtentAndPort_eq (w : Byte) : onOwnExtentAndPort p [v, w] s port = match decodePort w.toNat with
    | none => answer p .field [] s
    | some q => onOwnExtent p [v, w] s fun h e => port h e q := by
  rw [onOwnExtentAndPort, fieldByte_succ, fieldByte_zero] <;> rfl

theorem onOwnExtentAndPort_owned (he : s.extent h = some e) (howner : e.owner = some p) :
    onOwnExtentAndPort p [byteOf h.val, encodePort q] s port = port h e q := by
  rw [onOwnExtentAndPort_eq, decodePort_encodePort]
  exact onOwnExtent_owned he howner

theorem onOwnExtentAndPort_field {w : Byte} (hw : 4 ≤ w.toNat) :
    onOwnExtentAndPort p [v, w] s port = answer p .field [] s := by
  rw [onOwnExtentAndPort_eq, decodePort_eq_none hw]

theorem onOwnExtentAndPort_inRange {w : Byte} (hw : w.toNat < 4) :
    ∃ body, onOwnExtentAndPort p [v, w] s port = onOwnExtent p [v, w] s body := by
  obtain ⟨q, hq⟩ := decodePort_of_lt hw
  exact ⟨_, by rw [onOwnExtentAndPort_eq, hq]⟩

end

/-- How a row on a port's own extent ends its action: Free Extent and Revoke let the idle banks decide. -/
def endOfRow (code : Byte) (a : Act) : State := if code = 0x19 ∨ code = 0x1B then a.settleAndArbitrate else a.settle

theorem endOfRow_freeExtent (a : Act) : endOfRow 0x19 a = a.settleAndArbitrate := if_pos (.inl rfl)
theorem endOfRow_revoke (a : Act) : endOfRow 0x1B a = a.settleAndArbitrate := if_pos (.inr rfl)
theorem endOfRow_grant (a : Act) : endOfRow 0x1A a = a.settle := if_neg (by decide)
theorem endOfRow_mend (a : Act) : endOfRow 0x1C a = a.settle := if_neg (by decide)

theorem endOfRow_refusal {code : Byte} {a : Act} {result : Result} (hasks : asks s p r = true)
    (ha : a = answer p result [] s) :
    endOfRow code a = if code = 0x19 ∨ code = 0x1B then arbitrate (s.answered p r.tag result [])
      else s.answered p r.tag result [] := by
  unfold endOfRow
  split
  · exact settleAndArbitrate_refusal hasks ha
  · exact settle_body_refusal hasks ha

/-- The four rows begin with the check of the port byte, where they have one, and then of the extent. -/
theorem exec_onOwnExtent {row : Byte × (PortId → Instr)} {handle : Byte} {rest : List Byte}
    (hrow : row ∈ [((0x19 : Byte), Instr.freeExtent), (0x1A, .grant), (0x1B, .revoke), (0x1C, .mend)])
    (hasks : asks s p r = true) (hjoined : s.sessionState p = .joined) (hpayload : r.payload = handle :: rest)
    (hcode : r.code = row.1) (hlength : permittedLength row.1 r.payload.length = true) :
    (¬(∀ v : Byte, rest = [v] → v.toNat < 4) →
      exec (row.2 p) s = .next (endOfRow row.1 (answer p .field [] s))) ∧
    ((∀ v : Byte, rest = [v] → v.toNat < 4) →
      ∃ body, exec (row.2 p) s = .next (endOfRow row.1 (onOwnExtent p (handle :: rest) s body))) := by
  have hfor : asksFor s p r row.1 r.payload.length = true := asksFor_iff.2 ⟨hasks, hjoined, hcode, rfl⟩
  have hport : ∀ {port : Fin 32 → Extent → PortId → Act}, r.payload.length = 2 →
      (¬(∀ v : Byte, rest = [v] → v.toNat < 4) →
        onOwnExtentAndPort p r.payload s port = answer p .field [] s) ∧
      ((∀ v : Byte, rest = [v] → v.toNat < 4) →
        ∃ body, onOwnExtentAndPort p r.payload s port = onOwnExtent p (handle :: rest) s body) := by
    intro port hlen
    rw [hpayload] at hlen ⊢
    obtain ⟨w, rfl⟩ := List.length_eq_one_iff.1 (Nat.succ.inj hlen)
    refine ⟨fun hout => onOwnExtentAndPort_field (Nat.le_of_not_lt fun hw => hout fun v hv => ?_),
      fun hin => onOwnExtentAndPort_inRange (hin w rfl)⟩
    obtain rfl := (List.cons.inj hv).1
    exact hw
  have halone : r.payload.length = 1 → ∀ v : Byte, rest = [v] → v.toNat < 4 := fun hlen v hv => by
    rw [hpayload, hv] at hlen
    cases hlen
  simp only [List.mem_cons, List.not_mem_nil, or_false] at hrow
  rcases hrow with rfl | rfl | rfl | rfl <;>
    obtain hlen : r.payload.length = _ := of_decide_eq_true hlength <;> rw [hlen] at hfor
  · simp only [endOfRow_freeExtent]
    refine ⟨fun hout => absurd (halone hlen) hout, fun _ => ?_⟩
    rw [← hpayload]
    exact ⟨_, exec_freeExtent hfor⟩
  · simp only [endOfRow_grant]
    refine ⟨fun hout => ?_, fun hin => ?_⟩
    · rw [exec_grant hfor, grantBody, (hport hlen).1 hout]
    · obtain ⟨body, hbody⟩ := (hport hlen).2 hin
      exact ⟨body, by rw [exec_grant hfor, grantBody, hbody]⟩
  · simp only [endOfRow_revoke]
    refine ⟨fun hout => ?_, fun hin => ?_⟩
    · rw [exec_revoke hfor, revokeBody, (hport hlen).1 hout]
    · obtain ⟨body, hbody⟩ := (hport hlen).2 hin
      exact ⟨body, by rw [exec_revoke hfor, revokeBody, hbody]⟩
  · simp only [endOfRow_mend]
    refine ⟨fun hout => absurd (halone hlen) hout, fun _ => ?_⟩
    rw [← hpayload]
    exact ⟨_, exec_mend hfor⟩

/-! ### What is left once the messages arrived and the idle banks decided -/

variable {a : Act}

theorem onExtents_answer (p : PortId) (result : Result) (payload : List Byte) (s : State) :
    onExtents s (answer p result payload s) :=
  ⟨⟨s.extents, s.banks, s.transfer, rfl⟩, endsNoSession_answer p result payload s⟩

theorem settleAndArbitrate_onExtents (ha : onExtents s a) :
    let t := a.settleAndArbitrate
    t = { s with
      extents := t.extents, transfer := t.transfer, banks := t.banks, ports := t.ports
      scan := { s.scan with fetch := t.scan.fetch }, arrivals := s.arrivals.tail } := by
  obtain ⟨⟨e, b, u, hst⟩, hend⟩ := ha
  obtain ⟨banks, fetch, transfer, harbitrate, -⟩ := arbitrate_frame a.settle
  have hsettle := settle_eq_of_no_end hend
  intro t
  have ht : t = { a.settle with banks := banks, scan := { a.settle.scan with fetch := fetch }, transfer := transfer } :=
    harbitrate
  rw [ht, hsettle, hst]

theorem settleAndArbitrate_ports (a : Act) : a.settleAndArbitrate.ports = a.settle.ports :=
  arbitrate_ports _

theorem settleAndArbitrate_unit (a : Act) (q : PortId) :
    sameWork (a.st.transfer.get q) (a.settleAndArbitrate.transfer.get q) := by
  have hunit := arbitrate_unit (s := a.settle) q
  rwa [settle_transfer] at hunit

theorem settleAndArbitrate_inFlight (a : Act) {b : BankId} {x : Access} (hx : (a.st.banks.get b).inFlight = some x) :
    (a.settleAndArbitrate.banks.get b).inFlight = some x :=
  arbitrate_inFlight (by rw [settle_banks]; exact hx)

theorem settleAndArbitrate_extents (a : Act) : a.settleAndArbitrate.extents = a.st.extents := by
  rw [Act.settleAndArbitrate, arbitrate_extents, settle_extents]

theorem settleAndArbitrate_extent (a : Act) (k : Fin 32) : a.settleAndArbitrate.extent k = a.st.extent k := by
  rw [State.extent, settleAndArbitrate_extents, State.extent]

/-- An answer, and then a change of the extents. -/
theorem answer_then_out (result : Result) (payload : List Byte) (f : State → Act) :
    ((answer p result payload s).andThen f).out.map Prod.snd =
      .respond p result payload :: ((f s).out.map Prod.snd) := rfl

theorem answer_then_goesTo (result : Result) (payload : List Byte) (f : State → Act) (hq : q ≠ p) :
    (((answer p result payload s).andThen f).out.map Prod.snd).filter (Msg.goesTo q) =
      ((f s).out.map Prod.snd).filter (Msg.goesTo q) := by
  rw [answer_then_out, List.filter_cons, if_neg (by simp [Msg.goesTo, hq.symm])]

theorem answer_then_goesTo_self (result : Result) (payload : List Byte) (f : State → Act) :
    (((answer p result payload s).andThen f).out.map Prod.snd).filter (Msg.goesTo p) =
      .respond p result payload :: ((f s).out.map Prod.snd).filter (Msg.goesTo p) := by
  rw [answer_then_out, List.filter_cons, if_pos (by simp [Msg.goesTo])]

end Sys2Proof.Machine
end

section
/-! PROOF. Free Extent, Grant, Revoke and Mend (R105 to R112). -/

set_option Elab.async false

namespace Sys2Proof.Machine

variable {p q : PortId} {s : State} {r : Request} {h : Fin 32} {e : Extent}

/-! ### The port that asked -/

theorem coalesce_keeps_response {e : Event} {l frames : List Frame} {tag : Byte} {v : Result} {payload : List Byte}
    (hq : coalesce e l = some frames) (hmem : .response tag v payload ∈ l) : .response tag v payload ∈ frames := by
  induction l generalizing frames with
  | nil => cases hmem
  | cons f rest ih =>
    unfold coalesce at hq
    cases hrest : coalesce e rest with
    | some rest' =>
      rw [hrest] at hq
      obtain rfl := Option.some.inj hq
      rcases List.mem_cons.1 hmem with rfl | htail
      · exact List.mem_cons_self
      · exact List.mem_cons_of_mem _ (ih hrest htail)
    | none =>
      rw [hrest] at hq
      cases f with
      | response => cases hq
      | event old n =>
        have htail : .response tag v payload ∈ rest := by simpa using hmem
        by_cases hsame : old.sameSubject e = true
        · simp only [hsame, if_true, Option.some.injEq] at hq
          subst hq
          exact List.mem_cons_of_mem _ htail
        · simp [hsame] at hq

/-- An event that arrives leaves the responses in the queue. -/
theorem takeEvent_keeps_response {c : PortController} {tag : Byte} {v : Result} {payload : List Byte} (e : Event)
    (hmem : .response tag v payload ∈ c.outbound) : .response tag v payload ∈ (c.takeEvent e).outbound := by
  unfold PortController.takeEvent
  split
  · exact List.mem_append_left _ hmem
  · split
    · split
      · rename_i frames hframes
        cases hout : c.outbound with
        | nil => simp [hout] at hmem
        | cons f rest =>
          rw [hout] at hmem hframes
          rcases List.mem_cons.1 hmem with rfl | htail
          · simp
          · exact List.mem_append_right _ (coalesce_keeps_response hframes htail)
      · exact hmem
    · split
      · rename_i frames hframes
        exact coalesce_keeps_response hframes hmem
      · exact hmem

variable {a : Act} {result : Result} {payload : List Byte}

/-- The port that asked, answered and sent nothing else. -/
theorem settle_port_answered (hasks : asks s p r = true) (hend : a.endsNoSession) (hports : a.st.ports = s.ports)
    (hmsgs : (a.out.map Prod.snd).filter (Msg.goesTo p) = [.respond p result payload]) :
    a.settle.ports.get p =
      { s.ports.get p with
        requests := (s.ports.get p).requests.tail
        outbound := (s.ports.get p).outbound ++ [.response r.tag result payload] } := by
  obtain ⟨-, hexecuting, hdiscard, -, hhead⟩ := asks_iff.1 hasks
  rw [settle_port_of_single hend (m := some (.respond p result payload)) hmsgs, hports]
  exact takeResponse_of_head hexecuting hdiscard hhead result payload

/-- The port that asked, answered and sent an event as well. -/
theorem settle_port_answered_event {event : Event} (hasks : asks s p r = true) (hend : a.endsNoSession)
    (hports : a.st.ports = s.ports)
    (hmsgs : (a.out.map Prod.snd).filter (Msg.goesTo p) = [.respond p result payload, .event p event]) :
    (a.settle.ports.get p).requests = (s.ports.get p).requests.tail ∧
      .response r.tag result payload ∈ (a.settle.ports.get p).outbound := by
  obtain ⟨-, hexecuting, hdiscard, -, hhead⟩ := asks_iff.1 hasks
  obtain ⟨hrequests', hexecuting', hdiscard', -, -⟩ := takeEvent_keeps (s.ports.get p) event
  have hpair := settle_port_of_pair hend hmsgs
  simp only [PortController.afterMsg, hports] at hpair
  rw [takeResponse_of_head hexecuting hdiscard hhead] at hpair
  cases htakes : (a.st.session.records.get p).takesEvents with
  | false =>
    simp only [htakes, Bool.false_eq_true, if_false] at hpair
    rw [takeResponse_of_head hexecuting hdiscard hhead, or_self] at hpair
    rw [hpair]
    exact ⟨rfl, List.mem_append_right _ (List.mem_singleton_self _)⟩
  | true =>
    simp only [htakes, if_true] at hpair
    rw [takeResponse_of_head (hexecuting'.trans hexecuting) (hdiscard'.trans hdiscard)
      (hrequests'.symm ▸ hhead)] at hpair
    rcases hpair with hport | hport <;> rw [hport]
    · exact ⟨(takeEvent_keeps _ event).1,
        takeEvent_keeps_response event (List.mem_append_right _ (List.mem_singleton_self _))⟩
    · exact ⟨congrArg List.tail hrequests', List.mem_append_right _ (List.mem_singleton_self _)⟩

theorem endAnswer_of_no_job (hjob : (s.transfer.get p).job = none) (taken : Fin 32 → Option Result) :
    (s.transfer.get p).endAnswer p taken = [] := by
  rw [TransferUnit.endAnswer, hjob]
  rfl

/-! ### Free Extent -/

/-- Free Extent of an extent that no port draws from. -/
def freeing (p : PortId) (h : Fin 32) (s : State) : Act := (answer p .ok [] s).andThen (releaseExtent h)

theorem freeing_onExtents (p : PortId) (h : Fin 32) (s : State) : onExtents s (freeing p h s) :=
  (onExtents_answer p .ok [] s).andThen (releaseExtent_onExtents h s)

theorem freeing_ports (p : PortId) (h : Fin 32) (s : State) : (freeing p h s).st.ports = s.ports := by
  obtain ⟨_, _, _, hst⟩ := (freeing_onExtents p h s).1
  rw [hst]

theorem freeing_session (p : PortId) (h : Fin 32) (s : State) : (freeing p h s).st.session = s.session := by
  obtain ⟨_, _, _, hst⟩ := (freeing_onExtents p h s).1
  rw [hst]

theorem freeing_goesTo (he : s.extent h = some e) (hq : q ≠ p) :
    ((freeing p h s).out.map Prod.snd).filter (Msg.goesTo q) =
      ((if e.grants.get q = .granted then some (Event.grantEnded h e.allocator) else none).map (Msg.event q)).toList ++
        (s.transfer.get q).endAnswer q (takenOnly h .noObject) := by
  rw [freeing, answer_then_goesTo _ _ _ hq, releaseExtent_goesTo he q]
  congr 1
  split <;> rfl

theorem freeing_goesTo_self (he : s.extent h = some e) (hjob : (s.transfer.get p).job = none) :
    ((freeing p h s).out.map Prod.snd).filter (Msg.goesTo p) =
      .respond p .ok [] ::
        (if e.grants.get p = .granted then some (Msg.event p (.grantEnded h e.allocator)) else none).toList := by
  rw [freeing, answer_then_goesTo_self, releaseExtent_goesTo he p, endAnswer_of_no_job hjob, List.append_nil]

theorem freeing_loses (he : s.extent h = some e) (q : PortId) : unitLoses s (freeing p h s).settleAndArbitrate q h :=
  unitLoses_of_loses (releaseExtent_loses he q) (settleAndArbitrate_unit (freeing p h s) q) fun _ _ hx =>
    settleAndArbitrate_inFlight (freeing p h s) hx

theorem freeExtentBody_inUse (he : s.extent h = some e) (howner : e.owner = some p) (hcount : ∃ q, e.counts.get q ≠ 0) :
    freeExtentBody p [byteOf h.val] s = answer p .inUse [] s := by
  obtain ⟨q, hq⟩ := hcount
  rw [freeExtentBody, onOwnExtent_owned he howner, if_neg fun hfree => hq (unreferenced_iff.1 hfree q)]

theorem freeExtentBody_frees (he : s.extent h = some e) (howner : e.owner = some p)
    (hcount : ∀ q, e.counts.get q = 0) : freeExtentBody p [byteOf h.val] s = freeing p h s := by
  rw [freeExtentBody, onOwnExtent_owned he howner, if_pos (unreferenced_iff.2 hcount)]
  rfl

end Sys2Proof.Machine
end

section
set_option Elab.async false

open Sys2Proof Sys2Proof.Machine

/-- Settles O30: the loss of the extent, told to every port, on top of the answer. -/
theorem freeExtentFreesTheHandle : Obligations.FreeExtentFreesTheHandle := by
  intro p r s h e hfor hpayload he howner hallocator
  have hasks := (asksFor_iff.1 hfor).1
  have hexec := exec_freeExtent hfor
  rw [hpayload] at hexec
  have hend : (freeing p h s).endsNoSession := (freeing_onExtents p h s).2
  have hself := freeing_goesTo_self (p := p) he (asks_iff.1 hasks).2.2.2.1
  refine ⟨fun hcount => ?_, fun hcount => ⟨(freeing p h s).settleAndArbitrate, ?_, ?_, ?_, ?_, ?_, ?_, ?_, ?_, ?_, ?_⟩⟩
  · exact hexec.trans (congrArg Host.Outcome.next
      (settleAndArbitrate_refusal hasks (freeExtentBody_inUse he howner hcount)))
  · rw [hexec, freeExtentBody_frees he howner hcount]
  · exact settleAndArbitrate_onExtents (freeing_onExtents p h s)
  · rw [settleAndArbitrate_extent]
    exact (releaseExtent_extent he).trans (if_pos rfl)
  · intro k hk
    rw [settleAndArbitrate_extent]
    exact (releaseExtent_extent he).trans (if_neg hk)
  · intro q
    rw [settleAndArbitrate_extents]
    show (releaseExtent h s).st.extents.clearLists.get q = _
    rw [releaseExtent_extents he]
    exact PerPort.get_tab _ q
  · rw [settleAndArbitrate_ports]
    by_cases hgrant : e.grants.get p = .granted
    · rw [if_pos hgrant] at hself
      exact (settle_port_answered_event hasks hend (freeing_ports p h s) hself).1
    · rw [if_neg hgrant] at hself
      rw [settle_port_answered hasks hend (freeing_ports p h s) hself]
  · rw [settleAndArbitrate_ports]
    by_cases hgrant : e.grants.get p = .granted
    · rw [if_pos hgrant] at hself
      exact (settle_port_answered_event hasks hend (freeing_ports p h s) hself).2
    · rw [if_neg hgrant] at hself
      rw [settle_port_answered hasks hend (freeing_ports p h s) hself]
      exact List.mem_append_right _ (List.mem_singleton_self _)
  · intro hgrant
    rw [if_neg hgrant] at hself
    rw [settleAndArbitrate_ports, settle_port_answered hasks hend (freeing_ports p h s) hself]
  · intro q hq
    have hmsgs := freeing_goesTo he hq
    rw [hallocator] at hmsgs
    exact portToldOfLoss_of hend hmsgs
      (congrArg (fun x => PerPort.get x q) (freeing_ports p h s)) (freeing_session p h s)
      (settleAndArbitrate_ports _)
  · exact fun q => freeing_loses he q

end

section
/-! SUPPORT. Grant, Revoke and Mend of a port's own extent. -/

set_option Elab.async false

namespace Sys2Proof.Machine

variable {p q : PortId} {s : State} {r : Request} {h : Fin 32} {e : Extent}

theorem grantBody_owned (he : s.extent h = some e) (howner : e.owner = some p) :
    grantBody p [byteOf h.val, encodePort q] s =
      if q = p ∨ s.sessionState q ≠ .joined then answer p .field [] s
      else answer p .ok [] (s.setExtent h (some { e with grants := e.grants.set q .granted })) := by
  rw [grantBody, onOwnExtentAndPort_owned he howner, setGrant_eq he]

theorem mendBody_owned (he : s.extent h = some e) (howner : e.owner = some p) :
    mendBody p [byteOf h.val] s = match e.state with
      | .clearing => answer p .busy [] s
      | .ready => answer p .ok [] s
      | .damaged => answer p .ok [] (s.setExtent h (some { e with state := .ready, lost := 0 })) :=
  onOwnExtent_owned he howner

/-- Revoke of another port's grant. -/
def revoking (p q : PortId) (h : Fin 32) (s : State) : Act := (answer p .ok [] s).andThen (revokeGrant h p q)

theorem revokeBody_owned (he : s.extent h = some e) (howner : e.owner = some p) :
    revokeBody p [byteOf h.val, encodePort q] s =
      if q = p then answer p .field [] s else revoking p q h s := by
  rw [revokeBody, onOwnExtentAndPort_owned he howner, revoking]

theorem revoking_idle (he : s.extent h = some e) (hgrant : e.grants.get q ≠ .granted) :
    revoking p q h s = answer p .ok [] s := by
  simp [revoking, Act.andThen, answer, Act.send, Act.quiet, revokeGrant_idle he hgrant]

theorem revoking_onExtents (p q : PortId) (h : Fin 32) (s : State) : onExtents s (revoking p q h s) :=
  (onExtents_answer p .ok [] s).andThen (revokeGrant_onExtents h p q s)

theorem revoking_ports (p q : PortId) (h : Fin 32) (s : State) : (revoking p q h s).st.ports = s.ports := by
  obtain ⟨_, _, _, hst⟩ := (revoking_onExtents p q h s).1
  rw [hst]

theorem revoking_session (p q : PortId) (h : Fin 32) (s : State) : (revoking p q h s).st.session = s.session := by
  obtain ⟨_, _, _, hst⟩ := (revoking_onExtents p q h s).1
  rw [hst]

theorem revoking_extents (he : s.extent h = some e) :
    (revoking p q h s).st.extents =
      (s.setExtent h (some { e with grants := e.grants.set q (revokedGrant e q) })).extents := revokeGrant_extents he

/-- What the ports are sent at a revocation. -/
theorem revokeGrant_goesTo (he : s.extent h = some e) (hgrant : e.grants.get q = .granted) (v : PortId) :
    ((revokeGrant h p q s).out.map Prod.snd).filter (Msg.goesTo v) =
      if v = q then
        if e.counts.get q = 0 then
          Msg.event q (.grantEnded h p) :: (s.transfer.get q).endAnswer q (takenOnly h .notGranted)
        else [Msg.event q (.grantWithdrawn h p)]
      else [] := by
  by_cases hcount : e.counts.get q = 0
  · have honly : (noticeGrantNone h q (setGrant h q .none s)).onlyAnswers := loseExtent_onlyAnswers h .notGranted q _
    have hanswers : answersTo v (noticeGrantNone h q (setGrant h q .none s)) =
        if v = q then (s.transfer.get q).endAnswer q (takenOnly h .notGranted) else [] := by
      by_cases hv : v = q
      · subst hv
        rw [if_pos rfl, noticeGrantNone, (loseExtent_loses h .notGranted v _).answers,
          (setGrant_spares h v .none v s).unit.symm]
        rfl
      · rw [if_neg hv, noticeGrantNone, (loseExtent_spares h .notGranted _ hv).answers]
    rw [revokeGrant_ends he hgrant hcount, Act.andThen_out, List.map_append, List.filter_append, Act.send_st,
      Act.quiet_st, honly.filter_goesTo, hanswers, if_pos hcount]
    show ([Msg.event q (.grantEnded h p)].filter (Msg.goesTo v)) ++ _ = _
    by_cases hv : v = q
    · subst hv
      simp [Msg.goesTo]
    · simp [hv, Msg.goesTo, eq_comm (a := q)]
  · rw [revokeGrant_withdraws he hgrant hcount, if_neg hcount]
    show [Msg.event q (.grantWithdrawn h p)].filter (Msg.goesTo v) = _
    by_cases hv : v = q
    · subst hv
      simp [Msg.goesTo]
    · simp [hv, Msg.goesTo, eq_comm (a := q)]

theorem settle_port_unsent {a : Act} {v : PortId} (hend : a.endsNoSession) (hports : a.st.ports = s.ports)
    (hmsgs : (a.out.map Prod.snd).filter (Msg.goesTo v) = []) : a.settle.ports.get v = s.ports.get v := by
  rw [settle_port_of_single hend (m := none) hmsgs, hports]
  rfl

/-- Revoke of a GRANTED grant of another port. -/
theorem revoking_granted (hasks : asks s p r = true) (he : s.extent h = some e) (hq : q ≠ p)
    (hgrant : e.grants.get q = .granted) :
    let t := (revoking p q h s).settleAndArbitrate
    t.extent h = some { e with grants := e.grants.set q (if e.counts.get q = 0 then .none else .withdrawing) } ∧
    (∀ k, k ≠ h → t.extent k = s.extent k) ∧
    t.ports.get p =
      { s.ports.get p with
        requests := (s.ports.get p).requests.tail
        outbound := (s.ports.get p).outbound ++ [.response r.tag .ok []] } ∧
    (∀ v, v ≠ p → v ≠ q → t.ports.get v = s.ports.get v) ∧
    (e.counts.get q = 0 → portToldOfLoss s t q h .notGranted (some (.grantEnded h p)) ∧ unitLoses s t q h) ∧
    (e.counts.get q ≠ 0 → t.ports.get q =
      if (s.session.records.get q).takesEvents then (s.ports.get q).takeEvent (.grantWithdrawn h p)
      else s.ports.get q) ∧
    t.extents.clearLists = s.extents.clearLists ∧
    t = { s with
      extents := t.extents, transfer := t.transfer, banks := t.banks, ports := t.ports
      scan := { s.scan with fetch := t.scan.fetch }, arrivals := s.arrivals.tail } := by
  intro t
  have hend : (revoking p q h s).endsNoSession := (revoking_onExtents p q h s).2
  have hports := revoking_ports p q h s
  have hextents : t.extents = (s.setExtent h (some { e with grants := e.grants.set q (revokedGrant e q) })).extents :=
    (settleAndArbitrate_extents _).trans (revoking_extents he)
  have hrevoked : revokedGrant e q = if e.counts.get q = 0 then .none else .withdrawing := if_pos hgrant
  have hmsgs : ∀ v, v ≠ p → ((revoking p q h s).out.map Prod.snd).filter (Msg.goesTo v) = _ := fun v hv =>
    (answer_then_goesTo .ok [] (revokeGrant h p q) hv).trans (revokeGrant_goesTo he hgrant v)
  have htports : t.ports = (revoking p q h s).settle.ports := settleAndArbitrate_ports _
  refine ⟨?_, fun k hk => ?_, ?_, fun v hvp hvq => ?_, fun hcount => ⟨?_, ?_⟩, fun hcount => ?_, ?_,
    settleAndArbitrate_onExtents (revoking_onExtents p q h s)⟩
  · rw [State.extent, hextents, hrevoked]
    exact State.setExtent_extent_same s h _
  · rw [State.extent, hextents]
    exact State.setExtent_extent_other s _ hk
  · rw [htports]
    refine settle_port_answered hasks hend hports ?_
    rw [revoking, answer_then_goesTo_self, revokeGrant_goesTo he hgrant, if_neg hq.symm]
  · rw [htports]
    exact settle_port_unsent hend hports ((hmsgs v hvp).trans (if_neg hvq))
  · refine portToldOfLoss_of hend ?_ (congrArg (fun x => PerPort.get x q) hports) (revoking_session p q h s) htports
    exact (hmsgs q hq).trans ((if_pos rfl).trans (if_pos hcount))
  · exact unitLoses_of_loses (revokeGrant_loses he hgrant hcount) (settleAndArbitrate_unit (revoking p q h s) q)
      fun _ _ hx => settleAndArbitrate_inFlight (revoking p q h s) hx
  · rw [htports, settle_port_of_single hend (m := some (.event q (.grantWithdrawn h p)))
      ((hmsgs q hq).trans ((if_pos rfl).trans (if_neg hcount))), hports, revoking_session]
    rfl
  · rw [hextents]
    rfl

end Sys2Proof.Machine
end

section
set_option Elab.async false

open Sys2Proof Sys2Proof.Machine

/-- Settles O31: the checks of the four rows, and the loss of the extent told to the target of a Revoke. -/
theorem grantRevokeAndMend : Obligations.GrantRevokeAndMend := by
  refine ⟨fun p q r s h e hasks hjoined he howner => ⟨fun hcode hpayload => ?_, fun hcode hpayload => ?_,
    fun hcode hpayload => ?_⟩, fun p r s handle rest hasks hjoined hpayload row hrow hcode hlength => ?_⟩
  · have hbody := grantBody_owned (q := q) he howner
    rw [exec_grant (asksFor_iff.2 ⟨hasks, hjoined, hcode, by rw [hpayload]; rfl⟩), hpayload]
    refine ⟨fun hfield => ?_, fun hq hother => ?_⟩
    · exact congrArg Host.Outcome.next (settle_body_refusal hasks (hbody.trans (if_pos hfield)))
    · exact congrArg Host.Outcome.next (settle_body_answer hasks (hbody.trans (if_neg (by simp [hq, hother]))) rfl)
  · have hbody := revokeBody_owned (q := q) he howner
    rw [exec_revoke (asksFor_iff.2 ⟨hasks, hjoined, hcode, by rw [hpayload]; rfl⟩), hpayload]
    refine ⟨fun hq => ?_, fun hq hgrant => ?_, fun hq hgrant => ⟨_, ?_, revoking_granted hasks he hq hgrant⟩⟩
    · exact congrArg Host.Outcome.next (settleAndArbitrate_refusal hasks (hbody.trans (if_pos hq)))
    · exact congrArg Host.Outcome.next (settleAndArbitrate_refusal hasks
        (hbody.trans ((if_neg hq).trans (revoking_idle he hgrant))))
    · rw [hbody, if_neg hq]
  · have hbody := mendBody_owned he howner
    rw [exec_mend (asksFor_iff.2 ⟨hasks, hjoined, hcode, by rw [hpayload]; rfl⟩), hpayload]
    refine ⟨fun hstate => ?_, fun hstate => ?_, fun hstate => ?_⟩ <;> rw [hstate] at hbody
    · exact congrArg Host.Outcome.next (settle_body_answer hasks hbody rfl)
    · exact congrArg Host.Outcome.next (settle_body_refusal hasks hbody)
    · exact congrArg Host.Outcome.next (settle_body_refusal hasks hbody)
  · obtain ⟨hout, hin⟩ := exec_onOwnExtent hrow hasks hjoined hpayload hcode hlength
    intro refused portInRange
    refine ⟨fun hfield => ?_, fun h hhandle hport => ⟨fun hnone => ?_, fun e he howner => ?_⟩⟩
    · by_cases hport : portInRange
      · obtain ⟨body, hexec⟩ := hin hport
        exact hexec.trans (congrArg Host.Outcome.next
          (endOfRow_refusal hasks (onOwnExtent_field (hfield.resolve_right fun hnot => hnot hport))))
      · exact (hout hport).trans (congrArg Host.Outcome.next (endOfRow_refusal hasks rfl))
    · obtain ⟨body, hexec⟩ := hin hport
      rw [hhandle] at hexec
      exact hexec.trans (congrArg Host.Outcome.next (endOfRow_refusal hasks (onOwnExtent_noObject hnone)))
    · obtain ⟨body, hexec⟩ := hin hport
      rw [hhandle] at hexec
      exact hexec.trans (congrArg Host.Outcome.next (endOfRow_refusal hasks (onOwnExtent_notOwner he howner)))

end

section
/-! SUPPORT. What the departure of a port sends (R115, R175, R187). -/

set_option Elab.async false

namespace Sys2Proof.Machine

variable {s : State} {a : Act} {h : Fin 32} {p q : PortId} {e : Extent} {o : Origin}

/-! ### The messages of one origin -/

@[simp] theorem sent_quiet (s : State) (o : Origin) : (Act.quiet s).sent o = [] := rfl

theorem sent_andThen (a : Act) (f : State → Act) (o : Origin) :
    (a.andThen f).sent o = a.sent o ++ (f a.st).sent o := by simp [Act.sent]

@[simp] theorem sent_change (a : Act) (f : State → State) (o : Origin) : (a.change f).sent o = a.sent o := rfl

theorem sent_send (a : Act) (x o : Origin) (m : Msg) :
    (a.send x m).sent o = a.sent o ++ if x = o then [m] else [] := by
  by_cases hx : x = o <;> simp [Act.sent, hx]

theorem sent_sendAll (a : Act) (x o : Origin) (l : List PortId) (e : Event) :
    (a.sendAll x l e).sent o = a.sent o ++ if x = o then l.map (fun v => Msg.event v e) else [] := by
  by_cases hx : x = o <;> simp [Act.sent, hx, List.filter_map, Function.comp_def]

theorem sent_answer (p : PortId) (v : Result) (payload : List Byte) (s : State) (o : Origin) :
    (answer p v payload s).sent o = if .response = o then [.respond p v payload] else [] := by
  rw [answer, sent_send, sent_quiet, List.nil_append]

theorem Act.onlyAnswers.sent (ha : a.onlyAnswers) (ho : o ≠ .response) : a.sent o = [] := by
  have hnone : a.out.filter (fun m => decide (m.1 = o)) = [] := List.filter_eq_nil_iff.2 fun m hm => by
    obtain ⟨p, v, payload, rfl⟩ := ha m hm
    simpa using ho.symm
  rw [Act.sent, hnone]
  rfl

/-- What a revocation sends its target. -/
def revocation (h : Fin 32) (g : PortId) (e : Extent) (q : PortId) : List Msg :=
  if e.grants.get q = .granted then
    [Msg.event q (if e.counts.get q = 0 then .grantEnded h g else .grantWithdrawn h g)]
  else []

theorem revokeGrant_sent {g : PortId} (he : s.extent h = some e) (ho : o ≠ .response) :
    (revokeGrant h g q s).sent o = if .extents = o then revocation h g e q else [] := by
  by_cases hgrant : e.grants.get q = .granted
  · by_cases hcount : e.counts.get q = 0
    · have hnotice : ∀ u, (noticeGrantNone h q u).sent o = [] := fun u =>
        (loseExtent_onlyAnswers h .notGranted q u).sent ho
      rw [revokeGrant_ends he hgrant hcount, sent_andThen, sent_send, hnotice, revocation, if_pos hgrant,
        if_pos hcount]
      simp
    · rw [revokeGrant_withdraws he hgrant hcount, sent_send, revocation, if_pos hgrant, if_neg hcount]
      simp
  · rw [revokeGrant_idle he hgrant, revocation, if_neg hgrant]
    simp

theorem revokeAll_sent {g : PortId} (l : List PortId) (hl : l.Nodup) (he : s.extent h = some e) (ho : o ≠ .response) :
    ((Act.quiet s).forEach l fun q => revokeGrant h g q).sent o =
      if .extents = o then l.flatMap (revocation h g e) else [] := by
  induction l generalizing s e with
  | nil => simp [Act.forEach]
  | cons q l ih =>
    obtain ⟨hq, hl⟩ := List.nodup_cons.1 hl
    have hextents := revokeGrant_extents (g := g) (p := q) he
    have hrecord : (revokeGrant h g q s).st.extent h =
        some { e with grants := e.grants.set q (revokedGrant e q) } := by
      rw [State.extent, hextents]
      exact State.setExtent_extent_same s h _
    have hrest : l.flatMap (revocation h g { e with grants := e.grants.set q (revokedGrant e q) }) =
        l.flatMap (revocation h g e) := List.flatMap_congr fun v hv => by
      have hne : v ≠ q := fun heq => hq (heq ▸ hv)
      simp only [revocation, PerPort.get_set_other _ _ hne]
    rw [Act.quiet_forEach_cons, sent_andThen, revokeGrant_sent he ho, ih hl hrecord, hrest, List.flatMap_cons]
    split <;> rfl

theorem grantedPorts_orphaned (p : PortId) (e : Extent) : grantedPorts (orphaned p e) = [] := by
  refine List.filter_eq_nil_iff.2 fun q _ => ?_
  simp only [orphaned, PerPort.get_tab, revokedGrant, decide_eq_true_eq]
  split
  · split <;> nofun
  · split
    · split <;> nofun
    · assumption

theorem releaseExtent_sent (he : s.extent h = some e) (ho : o ≠ .response) :
    (releaseExtent h s).sent o =
      if .extents = o then (grantedPorts e).map (fun v => Msg.event v (.grantEnded h e.allocator)) else [] := by
  rw [releaseExtent_eq he, sent_andThen, sent_sendAll, sent_quiet, (noticeFreed_onlyAnswers h _).sent ho,
    List.nil_append, List.append_nil]

/-- What the departure of port `p` sends at one extent. -/
def departureEvents (s : State) (p : PortId) (h : Fin 32) : List Msg :=
  match s.extent h with
  | some e =>
    if e.owner = some p then
      (allPorts.filter fun q => decide (q ≠ p) && decide (e.grants.get q = .granted)).map fun q =>
        Msg.event q (if e.counts.get q = 0 then .grantEnded h p else .grantWithdrawn h p)
    else []
  | none => []

theorem flatMap_revocation (h : Fin 32) (p : PortId) (e : Extent) :
    (otherPorts p).flatMap (revocation h p e) =
      (allPorts.filter fun q => decide (q ≠ p) && decide (e.grants.get q = .granted)).map fun q =>
        Msg.event q (if e.counts.get q = 0 then .grantEnded h p else .grantWithdrawn h p) := by
  have hflat : ∀ l : List PortId, l.flatMap (revocation h p e) =
      (l.filter fun q => decide (e.grants.get q = .granted)).map fun q =>
        Msg.event q (if e.counts.get q = 0 then .grantEnded h p else .grantWithdrawn h p) := by
    intro l
    induction l with
    | nil => rfl
    | cons q l ih =>
      rw [List.flatMap_cons, ih, revocation]
      by_cases hgrant : e.grants.get q = .granted <;> simp [hgrant]
  rw [hflat, otherPorts, List.filter_filter]
  simp only [Bool.and_comm]

theorem orphanExtent_sent (p : PortId) (h : Fin 32) (s : State) (ho : o ≠ .response) :
    (orphanExtent p h s).sent o = if .extents = o then departureEvents s p h else [] := by
  by_cases hother : ∀ e, s.extent h = some e → e.owner ≠ some p
  · have hnone : departureEvents s p h = [] := by
      unfold departureEvents
      cases he : s.extent h with
      | none => rfl
      | some e => exact if_neg (hother e he)
    rw [orphanExtent_idle hother, hnone, ite_self]
    rfl
  · obtain ⟨e, he, howner⟩ : ∃ e, s.extent h = some e ∧ e.owner = some p := by
      simpa using hother
    have hrecord : (afterRevokes p h e s).st.extent h = some (orphaned p e) := by
      rw [afterRevokes_extent, if_pos rfl]
    have hrelease : (releaseIfUnreferenced h (afterRevokes p h e s).st).sent o = [] := by
      rw [releaseIfUnreferenced_orphan hrecord rfl]
      split
      · rw [releaseExtent_sent hrecord ho, grantedPorts_orphaned, List.map_nil, ite_self]
      · rfl
    have hrevokes : departureEvents s p h = (otherPorts p).flatMap (revocation h p e) := by
      simp only [departureEvents, he, howner, if_true, flatMap_revocation]
    rw [orphanExtent_eq he howner, sent_andThen, hrelease, List.append_nil, afterRevokes, sent_change,
      revokeAll_sent (otherPorts p) (by cases p <;> decide) (State.setExtent_extent_same s h _) ho, hrevokes]
    rfl

theorem orphanAll_sent (p : PortId) (l : List (Fin 32)) (hl : l.Nodup) (s : State) (ho : o ≠ .response) :
    ((Act.quiet s).forEach l fun h => orphanExtent p h).sent o =
      if .extents = o then l.flatMap (departureEvents s p) else [] := by
  induction l generalizing s with
  | nil => simp [Act.forEach]
  | cons h l ih =>
    obtain ⟨hh, hl⟩ := List.nodup_cons.1 hl
    have hrest : l.flatMap (departureEvents (orphanExtent p h s).st p) = l.flatMap (departureEvents s p) :=
      List.flatMap_congr fun k hk => by
        have hne : k ≠ h := fun heq => hh (heq ▸ hk)
        rw [departureEvents, departureEvents, orphanExtent_extent_other hne]
    rw [Act.quiet_forEach_cons, sent_andThen, orphanExtent_sent p h s ho, ih hl, hrest, List.flatMap_cons]
    split <;> rfl

theorem orphanExtents_sent (p : PortId) (s : State) (ho : o ≠ .response) :
    (orphanExtents p s).sent o = if .extents = o then (List.finRange 32).flatMap (departureEvents s p) else [] :=
  orphanAll_sent p (List.finRange 32) (List.nodup_finRange 32) s ho

/-- The records after the departure of a port. -/
theorem orphanAll_extent (p : PortId) (l : List (Fin 32)) (hl : l.Nodup) (s : State) (k : Fin 32) :
    ((Act.quiet s).forEach l fun h => orphanExtent p h).st.extent k =
      if k ∈ l then (s.extent k).bind fun e =>
        if e.owner = some p then if e.unreferenced then none else some (orphaned p e) else some e
      else s.extent k := by
  induction l generalizing s with
  | nil => rfl
  | cons h l ih =>
    obtain ⟨hh, hl⟩ := List.nodup_cons.1 hl
    rw [Act.quiet_forEach_cons, Act.andThen_st, ih hl]
    by_cases hk : k = h
    · subst hk
      rw [if_neg hh, if_pos List.mem_cons_self, orphanExtent_extent, if_pos rfl]
    · simp only [orphanExtent_extent_other hk, List.mem_cons, hk, false_or]

theorem orphanExtents_extent (p : PortId) (s : State) (k : Fin 32) :
    (orphanExtents p s).st.extent k = (s.extent k).bind fun e =>
      if e.owner = some p then if e.unreferenced then none else some (orphaned p e) else some e :=
  (orphanAll_extent p (List.finRange 32) (List.nodup_finRange 32) s k).trans (if_pos (List.mem_finRange k))

end Sys2Proof.Machine
end

section
/-! SUPPORT. The start of a port's teardown: what it sends to each port, and how it leaves the transfer units (R154, R175
to R177). -/

set_option Elab.async false

namespace Sys2Proof.Machine

variable {s : State} {a : Act} {h : Fin 32} {p q : PortId} {e : Extent} {o : Origin}

/-! ### Responses and events apart -/

/-- The origin `response` sends responses alone. -/
def Act.tagged (a : Act) : Prop := ∀ m ∈ a.out, m.1 = .response → ∃ v r payload, m.2 = .respond v r payload

theorem Act.tagged_quiet (s : State) : (Act.quiet s).tagged := nofun

theorem Act.tagged.andThen {f : State → Act} (ha : a.tagged) (hf : (f a.st).tagged) : (a.andThen f).tagged := by
  intro m hm
  rw [Act.andThen_out, List.mem_append] at hm
  exact hm.elim (ha m) (hf m)

theorem Act.tagged.sendAll (ha : a.tagged) (ho : o ≠ .response) (l : List PortId) (e : Event) :
    (a.sendAll o l e).tagged := by
  intro m hm hresponse
  rw [Act.sendAll_out, List.mem_append] at hm
  refine hm.elim (fun hm => ha m hm hresponse) fun hm => ?_
  obtain ⟨v, -, rfl⟩ := List.mem_map.1 hm
  exact absurd hresponse ho

theorem Act.onlyAnswers.tagged (ha : a.onlyAnswers) : a.tagged := fun m hm _ => by
  obtain ⟨v, r, payload, rfl⟩ := ha m hm
  exact ⟨v, r, payload, rfl⟩

theorem Act.tagged.forEach {α : Type} {f : α → State → Act} (ha : a.tagged) (l : List α)
    (hf : ∀ x u, (f x u).tagged) : (a.forEach l f).tagged :=
  Act.forEach_keeps l ha fun x _ b hb => hb.andThen (hf x b.st)

theorem revokeGrant_tagged (h : Fin 32) (g p : PortId) (s : State) : (revokeGrant h g p s).tagged := by
  unfold revokeGrant
  split
  · exact Act.tagged_quiet s
  · split
    · split
      · exact ((Act.tagged_quiet _).sendAll (l := [p]) (by decide) _).andThen
          (loseExtent_onlyAnswers h .notGranted p _).tagged
      · exact (Act.tagged_quiet _).sendAll (l := [p]) (by decide) _
    · exact Act.tagged_quiet s
    · exact Act.tagged_quiet s

theorem releaseIfUnreferenced_tagged (h : Fin 32) (s : State) : (releaseIfUnreferenced h s).tagged := by
  unfold releaseIfUnreferenced
  split
  · rename_i e he
    split
    · rw [releaseExtent_eq he]
      exact ((Act.tagged_quiet _).sendAll (by decide) _ _).andThen (noticeFreed_onlyAnswers h _).tagged
    · exact Act.tagged_quiet s
  · exact Act.tagged_quiet s

theorem orphanExtent_tagged (p : PortId) (h : Fin 32) (s : State) : (orphanExtent p h s).tagged := by
  unfold orphanExtent
  split
  · exact Act.tagged_quiet s
  · split
    · exact Act.tagged.andThen (((Act.tagged_quiet _).forEach _ fun q u => revokeGrant_tagged h p q u))
        (releaseIfUnreferenced_tagged h _)
    · exact Act.tagged_quiet s

theorem orphanExtents_tagged (p : PortId) (s : State) : (orphanExtents p s).tagged :=
  (Act.tagged_quiet s).forEach _ fun h u => orphanExtent_tagged p h u

theorem voterLeft_tagged (p : PortId) (s : State) : (voterLeft p s).tagged := by
  unfold voterLeft
  split
  · exact Act.tagged_quiet s
  · split
    · exact (Act.tagged_quiet _).sendAll (by decide) _ _
    · exact Act.tagged_quiet s

theorem teardownStart_tagged (p : PortId) (cause : TeardownCause) (s : State) : (teardownStart p cause s).tagged :=
  (((Act.tagged_quiet _).sendAll (by decide) _ _).andThen (voterLeft_tagged p _)).andThen (orphanExtents_tagged p _)

/-- A port that no event goes to gets the answers sent to it. -/
theorem filter_goesTo_of_sent (htagged : a.tagged)
    (hevents : ∀ o, o ≠ .response → ∀ m ∈ a.sent o, Msg.goesTo q m = false) :
    (a.out.map Prod.snd).filter (Msg.goesTo q) = answersTo q a := by
  have hkept : ∀ m ∈ a.out, Msg.goesTo q m.2 = (decide (m.1 = .response) && match m.2 with
      | .respond v _ _ => decide (v = q)
      | _ => false) := by
    intro m hm
    by_cases hresponse : m.1 = .response
    · obtain ⟨v, r, payload, hm2⟩ := htagged m hm hresponse
      simp [hresponse, hm2, Msg.goesTo]
    · rw [decide_eq_false hresponse, Bool.false_and]
      exact hevents m.1 hresponse m.2 (List.mem_map.2 ⟨m, List.mem_filter.2 ⟨hm, by simp⟩, rfl⟩)
  rw [answersTo, Act.sent, List.filter_map, List.filter_map, List.filter_filter]
  congr 1
  refine List.filter_congr fun m hm => ?_
  rw [Function.comp_apply, hkept m hm, Bool.and_comm]
  rfl

/-! ### The state the extents are orphaned in -/

/-- The state after the blocks other than the extent manager started the teardown. -/
def departing (p : PortId) (cause : TeardownCause) (s : State) : State :=
  transferTeardown p (checkTeardown p (commitTeardown p (sessionTeardown p cause s)))

theorem teardownStart_eq (p : PortId) (cause : TeardownCause) (s : State) :
    teardownStart p cause s =
      (((Act.quiet (departing p cause s)).sendAll .session (joinedOthers (departing p cause s) p) (.peerLeft p)).andThen
        (voterLeft p)).andThen (orphanExtents p) := rfl

theorem departing_frame (p : PortId) (cause : TeardownCause) (s : State) :
    ∃ banks transfer, departing p cause s =
      { s with
        session := (sessionTeardown p cause s).session, commit := (commitTeardown p s).commit
        check := (checkTeardown p s).check, banks := banks, transfer := transfer } := by
  obtain ⟨b, t, ht⟩ := transferTeardown_frame p (checkTeardown p (commitTeardown p (sessionTeardown p cause s)))
  exact ⟨b, t, ht⟩

variable (cause : TeardownCause)

theorem departing_session : (departing p cause s).session = (sessionTeardown p cause s).session := by
  obtain ⟨_, _, h⟩ := departing_frame p cause s
  rw [h]

theorem departing_extents : (departing p cause s).extents = s.extents := by
  obtain ⟨_, _, h⟩ := departing_frame p cause s
  rw [h]

theorem departing_unit : (departing p cause s).transfer.get p =
    { cursor := none, buffer := .empty
      job := (s.transfer.get p).job.map fun j => { j.standAlone (s.firstRowOf j.handle) with detached := true } } :=
  transferTeardown_unit p (checkTeardown p (commitTeardown p (sessionTeardown p cause s)))

theorem departing_unit_other (hq : q ≠ p) : (departing p cause s).transfer.get q = s.transfer.get q := by
  unfold departing transferTeardown
  simp only [State.setTransfer_transfer, PerPort.get_set_other _ _ hq]
  exact emptyBuffer_other _ hq

theorem departing_inFlight : inFlightGiven s (departing p cause s) p (s.transfer.get p).buffer.isFetching :=
  inFlightGiven_emptyBuffer p (checkTeardown p (commitTeardown p (sessionTeardown p cause s)))

theorem departing_inFlight_other (hq : q ≠ p) : inFlightGiven s (departing p cause s) q false :=
  inFlightGiven_emptyBuffer_other (checkTeardown p (commitTeardown p (sessionTeardown p cause s))) hq

theorem voterLeft_st (p : PortId) (s : State) : ∃ planState, (voterLeft p s).st = s.setPlanState planState := by
  obtain ⟨⟨q, h, -⟩, -⟩ := voterLeft_frame p s
  exact ⟨q, h⟩

/-- The state the extents are orphaned in. -/
def beforeOrphans (p : PortId) (cause : TeardownCause) (s : State) : State := (voterLeft p (departing p cause s)).st

theorem beforeOrphans_same : (beforeOrphans p cause s).transfer = (departing p cause s).transfer ∧
    (beforeOrphans p cause s).banks = (departing p cause s).banks ∧ (beforeOrphans p cause s).extents = s.extents := by
  obtain ⟨planState, h⟩ := voterLeft_st p (departing p cause s)
  rw [beforeOrphans, h]
  exact ⟨rfl, rfl, departing_extents cause⟩

theorem teardownStart_st : (teardownStart p cause s).st = (orphanExtents p (beforeOrphans p cause s)).st := by
  rw [teardownStart_eq, Act.andThen_st, Act.andThen_st, Act.sendAll_st, Act.quiet_st, beforeOrphans]

/-! ### Messages -/

theorem joinedOthers_departing (p : PortId) (s : State) :
    joinedOthers (departing p cause s) p = allPorts.filter fun q => decide (q ≠ p) && s.joined q := by
  rw [joinedOthers, otherPorts, List.filter_filter]
  refine List.filter_congr fun q _ => ?_
  by_cases hq : q = p
  · simp [hq]
  · have hsame : (departing p cause s).joined q = s.joined q := by
      simp only [State.joined, State.sessionState, departing_session, sessionTeardown, State.setSession,
        PerPort.get_set_other _ _ hq]
      rfl
    rw [hsame, Bool.and_comm]

/-- What the departure of a voter sends. -/
def voterEvents (s : State) (p : PortId) : List Msg :=
  match s.session.planState.proposal? with
  | some k =>
    if k.voters.get p then
      (allPorts.filter fun v => decide (v ≠ p) && k.voters.get v).map fun v => Msg.event v (.planFailed .voterLeft p)
    else []
  | none => []

theorem voterLeft_sent (p : PortId) (s : State) (o : Origin) :
    (voterLeft p s).sent o = if .plan = o then voterEvents s p else [] := by
  unfold voterLeft voterEvents
  cases s.session.planState.proposal? with
  | none => simp
  | some k =>
    by_cases hvoter : k.voters.get p = true
    · simp [hvoter, sent_sendAll, portsOf, List.filter_filter]
    · simp [hvoter]

theorem departing_voterEvents : voterEvents (departing p cause s) p = voterEvents s p := by
  rw [voterEvents, departing_session]
  rfl

/-- What the teardown start sends, origin by origin, but for the answers. -/
theorem teardownStart_sent (ho : o ≠ .response) : (teardownStart p cause s).sent o =
    (if .session = o then (allPorts.filter fun q => decide (q ≠ p) && s.joined q).map fun q => Msg.event q (.peerLeft p)
      else []) ++
    (if .plan = o then voterEvents s p else []) ++
    (if .extents = o then (List.finRange 32).flatMap (departureEvents s p) else []) := by
  have hrecords : departureEvents (beforeOrphans p cause s) p = departureEvents s p := by
    funext k
    rw [departureEvents, departureEvents, State.extent, (beforeOrphans_same cause).2.2, State.extent]
  rw [teardownStart_eq, sent_andThen, sent_andThen, sent_sendAll, sent_quiet, List.nil_append, voterLeft_sent,
    joinedOthers_departing, orphanExtents_sent p _ ho]
  show _ ++ (if .plan = o then voterEvents (departing p cause s) p else []) ++
    (if .extents = o then (List.finRange 32).flatMap (departureEvents (beforeOrphans p cause s) p) else []) = _
  rw [departing_voterEvents, hrecords]

/-- The departing port itself is sent no event. -/
theorem teardownStart_sent_self (ho : o ≠ .response) {m : Msg} (hm : m ∈ (teardownStart p cause s).sent o) :
    Msg.goesTo p m = false := by
  rw [teardownStart_sent cause ho, List.mem_append, List.mem_append] at hm
  rcases hm with (hm | hm) | hm
  · split at hm
    · obtain ⟨q, hq, rfl⟩ := List.mem_map.1 hm
      simpa [Msg.goesTo] using (Bool.and_eq_true_iff.1 (List.mem_filter.1 hq).2).1
    · cases hm
  · split at hm
    · unfold voterEvents at hm
      split at hm
      · split at hm
        · obtain ⟨q, hq, rfl⟩ := List.mem_map.1 hm
          simpa [Msg.goesTo] using (Bool.and_eq_true_iff.1 (List.mem_filter.1 hq).2).1
        · cases hm
      · cases hm
    · cases hm
  · split at hm
    · obtain ⟨h, -, hm⟩ := List.mem_flatMap.1 hm
      unfold departureEvents at hm
      split at hm
      · split at hm
        · obtain ⟨q, hq, rfl⟩ := List.mem_map.1 hm
          simpa [Msg.goesTo] using (Bool.and_eq_true_iff.1 (List.mem_filter.1 hq).2).1
        · cases hm
      · cases hm
    · cases hm

end Sys2Proof.Machine
end

section
/-! PROOF. Leave and the expiry of a lease (R172 to R178). -/

set_option Elab.async false

namespace Sys2Proof.Machine

variable {s : State} {a : Act} {h : Fin 32} {p q : PortId} {e : Extent} (cause : TeardownCause)

/-! ### The transfer units -/

/-- A transfer in progress as it goes on after its port's teardown started: detached, and with its own accesses. -/
def Job.goOn (row : Fin 32 → Nat) (j : Job) : Job := { j.standAlone (row j.handle) with detached := true }

theorem goOn_isRead (row : Fin 32 → Nat) (j : Job) : (j.goOn row).isRead = j.isRead :=
  (standAlone_reads j (row j.handle)).1

theorem goOn_handle (row : Fin 32 → Nat) (j : Job) : (j.goOn row).handle = j.handle :=
  (standAlone_reads j (row j.handle)).2

theorem departing_unit_goOn : (departing p cause s).transfer.get p =
    { cursor := none, buffer := .empty, job := (s.transfer.get p).job.map (Job.goOn s.firstRowOf) } :=
  departing_unit cause

theorem takenAtDeparture_beforeOrphans (p q : PortId) (s : State) :
    takenAtDeparture (beforeOrphans p cause s) p q = takenAtDeparture s p q := by
  funext k
  exact takenAtDeparture_congr (by rw [State.extent, (beforeOrphans_same cause).2.2, State.extent])

theorem beforeOrphans_firstRowOf (p : PortId) (s : State) : (beforeOrphans p cause s).firstRowOf = s.firstRowOf :=
  firstRowOf_of_extents (beforeOrphans_same cause).2.2

theorem orphans_loses (p q : PortId) (s : State) :
    Loses (beforeOrphans p cause s) (orphanExtents p (beforeOrphans p cause s)) q (takenAtDeparture s p q) := by
  have hloses := orphanExtents_loses p q (beforeOrphans p cause s)
  rwa [takenAtDeparture_beforeOrphans] at hloses

theorem departed_unit_other (hq : q ≠ p) : (teardownStart p cause s).st.transfer.get q =
    (s.transfer.get q).losingAll (fun h => (takenAtDeparture s p q h).isSome) s.firstRowOf := by
  rw [teardownStart_st, (orphans_loses cause p q s).unit, (beforeOrphans_same cause).1, departing_unit_other cause hq,
    beforeOrphans_firstRowOf]

theorem departed_unit : (teardownStart p cause s).st.transfer.get p =
    { cursor := none, buffer := .empty
      job := (s.transfer.get p).job.bind fun j =>
        if j.isRead && (takenAtDeparture s p p j.handle).isSome then none else some (j.goOn s.firstRowOf) } := by
  rw [teardownStart_st, (orphans_loses cause p p s).unit, (beforeOrphans_same cause).1, departing_unit_goOn]
  cases (s.transfer.get p).job with
  | none => simp [TransferUnit.losingAll, ReadAhead.losingAll, ReadAhead.handle?]
  | some j => simp [TransferUnit.losingAll, ReadAhead.losingAll, ReadAhead.handle?, goOn_isRead, goOn_handle]

theorem departureAnswer_isSome (s : State) (p q : PortId) : (departureAnswer s p q).isSome =
    (s.transfer.get q).job.any fun j => j.isRead && (takenAtDeparture s p q j.handle).isSome := by
  rw [departureAnswer]
  cases (s.transfer.get q).job with
  | none => rfl
  | some j => cases hread : j.isRead <;> simp [hread]

theorem departed_inFlight_other (hq : q ≠ p) : inFlightGiven s (teardownStart p cause s).st q
    (((s.transfer.get q).buffer.isFetching && (s.transfer.get q).buffer.handle?.any fun h =>
      (takenAtDeparture s p q h).isSome) || (departureAnswer s p q).isSome) := by
  have hlast := (orphans_loses cause p q s).inFlight
  rw [(beforeOrphans_same cause).1, departing_unit_other cause hq] at hlast
  have hboth := ((departing_inFlight_other cause hq).trans
    (inFlightGiven_of_banks (beforeOrphans_same cause).2.1)).trans hlast
  rw [teardownStart_st, departureAnswer_isSome]
  exact hboth

theorem departed_inFlight : inFlightGiven s (teardownStart p cause s).st p
    ((s.transfer.get p).buffer.isFetching || (departureAnswer s p p).isSome) := by
  have hlast := (orphans_loses cause p p s).inFlight
  have hgives : ((beforeOrphans p cause s).transfer.get p).givesUp (fun h => (takenAtDeparture s p p h).isSome) =
      (departureAnswer s p p).isSome := by
    rw [(beforeOrphans_same cause).1, departing_unit_goOn, departureAnswer_isSome]
    cases (s.transfer.get p).job <;> simp [TransferUnit.givesUp, ReadAhead.isFetching, goOn_isRead, goOn_handle]
  rw [hgives] at hlast
  have hboth := ((departing_inFlight cause).trans (inFlightGiven_of_banks (beforeOrphans_same cause).2.1)).trans hlast
  rw [Bool.or_false] at hboth
  rw [teardownStart_st]
  exact hboth

theorem standAlone_of_kind {j : Job} (hkind : ∀ n, j.kind ≠ .readBuffered n) (row : Nat) : j.standAlone row = j := by
  unfold Job.standAlone
  split
  · rename_i n hn
    exact absurd hn (hkind n)
  · rfl

theorem standAlone_buffered {j : Job} {n : Nat} (hkind : j.kind = .readBuffered n) (row : Nat) :
    j.standAlone row = { j with kind := .read n, parts := readParts row j.offset n } := by
  rw [Job.standAlone, hkind]

theorem firstRowOf_of_record (he : s.extent h = some e) : s.firstRowOf h = e.firstRow := by
  rw [State.firstRowOf, he]
  rfl

/-- How the departure leaves the transfer units. -/
theorem unitsAtDeparture_of {u : State} (hu : u.transfer = (teardownStart p cause s).st.transfer)
    (hb : u.banks = (teardownStart p cause s).st.banks) : unitsAtDeparture s u p := by
  intro q
  by_cases hq : q = p
  · subst hq
    dsimp only
    rw [hu, hb, departed_unit]
    simp only [decide_true, Bool.true_or, if_true, Bool.and_true, true_and]
    refine ⟨fun hnone => by rw [hnone]; rfl, fun j hj => ?_, fun b x hx hreq => ?_⟩
    · rw [hj, Option.bind_some]
      split
      · rfl
      · refine ⟨fun hkind => ?_, fun n e hkind _ he => ?_⟩
        · have hkind' : ∀ n, j.kind ≠ .readBuffered n := hkind.resolve_right nofun
          rw [Job.goOn, standAlone_of_kind hkind', Bool.or_true]
        · rw [Job.goOn, standAlone_buffered hkind, firstRowOf_of_record he, Bool.or_true]
    · exact departed_inFlight cause b x hx hreq
  · dsimp only
    rw [hu, hb, departed_unit_other cause hq]
    simp only [hq, decide_false, Bool.false_or, if_false, Bool.or_false]
    refine ⟨rfl, rfl, fun hnone => by simp [TransferUnit.losingAll, hnone], fun j hj => ?_, fun b x hx hreq => ?_⟩
    · simp only [TransferUnit.losingAll, hj, Option.bind_some]
      split
      · rfl
      · refine ⟨fun hkind => ?_, fun n e hkind hempty he => ?_⟩
        · rcases hkind with hkind | hempty
          · rw [standAlone_of_kind hkind, ite_self]
          · rw [hempty, if_neg Bool.false_ne_true]
        · rw [hempty, if_pos rfl, standAlone_buffered hkind, firstRowOf_of_record he]
    · exact departed_inFlight_other cause hq b x hx hreq

/-! ### Answers and events -/

theorem departureAnswer_toList (s : State) (p q : PortId) :
    (departureAnswer s p q).toList = (s.transfer.get q).endAnswer q (takenAtDeparture s p q) := rfl

theorem endAnswer_goOn (u : TransferUnit) (q : PortId) (taken : Fin 32 → Option Result) (row : Fin 32 → Nat) :
    TransferUnit.endAnswer { cursor := none, buffer := .empty, job := u.job.map (Job.goOn row) } q taken =
      u.endAnswer q taken := by
  cases hjob : u.job <;> simp [TransferUnit.endAnswer, hjob, goOn_isRead, goOn_handle]

theorem teardownStart_answers (q : PortId) :
    answersTo q (teardownStart p cause s) = (departureAnswer s p q).toList := by
  have hvoter : answersTo q (voterLeft p (departing p cause s)) = [] := by
    rw [answersTo, voterLeft_sent]
    rfl
  have hunit : ((beforeOrphans p cause s).transfer.get q).endAnswer q (takenAtDeparture s p q) =
      (s.transfer.get q).endAnswer q (takenAtDeparture s p q) := by
    rw [(beforeOrphans_same cause).1]
    by_cases hq : q = p
    · subst hq
      rw [departing_unit_goOn, endAnswer_goOn]
    · rw [departing_unit_other cause hq]
  rw [teardownStart_eq, answersTo_andThen, answersTo_andThen, answersTo_sendAll, List.nil_append]
  show answersTo q (voterLeft p (departing p cause s)) ++
    answersTo q (orphanExtents p (beforeOrphans p cause s)) = _
  rw [hvoter, (orphans_loses cause p q s).answers, hunit, departureAnswer_toList, List.nil_append]

theorem departureSends_of (hsent : ∀ o, o ≠ .response → a.sent o = (teardownStart p cause s).sent o) :
    departureSends s p a := by
  have hsession := hsent .session (by decide)
  have hplan := hsent .plan (by decide)
  have hextents := hsent .extents (by decide)
  have hcommit := hsent .commit (by decide)
  have hcheck := hsent .check (by decide)
  have hscan := hsent .scan (by decide)
  rw [teardownStart_sent cause (by decide)] at hsession hplan hextents hcommit hcheck hscan
  simp only [reduceCtorEq, if_false, if_true, List.append_nil, List.nil_append] at hsession hplan hextents hcommit hcheck hscan
  exact ⟨hsession, hplan, hextents, hcommit, hcheck, hscan⟩

/-! ### The records -/

theorem settleAndArbitrate_session (hend : a.endsNoSession) : a.settleAndArbitrate.session = a.st.session := by
  rw [Act.settleAndArbitrate, arbitrate_session, settle_eq_of_no_end hend]

theorem voterLeft_planState (p : PortId) (s : State) :
    (voterLeft p s).st = s.setPlanState (match s.session.planState.proposal? with
      | some q => if q.voters.get p then .steady else s.session.planState
      | none => s.session.planState) := by
  unfold voterLeft
  cases s.session.planState.proposal? with
  | none => rfl
  | some q => cases hvoter : q.voters.get p <;> simp only [hvoter] <;> rfl

theorem teardownStart_session (p : PortId) (s : State) : (teardownStart p cause s).st.session =
    { (sessionTeardown p cause s).session with
      planState := match s.session.planState.proposal? with
        | some q => if q.voters.get p then .steady else s.session.planState
        | none => s.session.planState } := by
  obtain ⟨⟨_, _, _, horphans⟩, -⟩ := orphanExtents_onExtents p (beforeOrphans p cause s)
  rw [teardownStart_st, horphans]
  show (beforeOrphans p cause s).session = _
  rw [beforeOrphans, voterLeft_planState]
  rw [State.setPlanState_session, departing_session]
  rfl

theorem teardownStart_extent (p : PortId) (s : State) (k : Fin 32) :
    (teardownStart p cause s).st.extent k = (s.extent k).bind fun e =>
      if e.owner = some p then if e.unreferenced then none else some (orphaned p e) else some e := by
  rw [teardownStart_st, orphanExtents_extent]
  show (beforeOrphans p cause s).extents.records[k].bind _ = _
  rw [(beforeOrphans_same cause).2.2]
  rfl

theorem retireFor_eq (p : PortId) (r : Slot) : r.retireFor p = match r with
    | .held .owned q d => .held (if q = p then .retiring else .owned) q d
    | r => r := by
  match r with
  | .free => rfl
  | .held .retiring q d => rfl
  | .held .owned q d => by_cases hq : q = p <;> simp [Slot.retireFor, hq]

/-- The start of a teardown, once its messages arrived and the idle banks decided. -/
theorem teardownStarted_of (hst : a.st = (teardownStart p cause s).st) (hend : a.endsNoSession) :
    teardownStarted s a.settleAndArbitrate p cause := by
  obtain ⟨⟨planState, extents, banks, transfer, hframe, -⟩, -⟩ := teardownStart_frame p cause s
  have hunit := settleAndArbitrate_unit a p
  rw [hst, departed_unit] at hunit
  obtain ⟨hcursor, hhandle, -⟩ := hunit
  have hsession : a.settleAndArbitrate.session = _ :=
    (settleAndArbitrate_session hend).trans ((congrArg State.session hst).trans (teardownStart_session cause p s))
  have hcommit : a.settleAndArbitrate.commit = (commitTeardown p s).commit := by
    rw [Act.settleAndArbitrate, arbitrate_commit, settle_commit, hst, hframe]
  have hcheck : a.settleAndArbitrate.check = (checkTeardown p s).check := by
    rw [Act.settleAndArbitrate, arbitrate_check, settle_check, hst, hframe]
  have hextent : ∀ k, a.settleAndArbitrate.extent k = _ := fun k =>
    (settleAndArbitrate_extent a k).trans ((congrArg (fun u => State.extent u k) hst).trans
      (teardownStart_extent cause p s k))
  refine ⟨?_, fun q hq => ?_, ?_, ?_, ?_, fun q hq => ?_, fun l => ?_, fun n => ?_, hcursor, ?_,
    fun h e he => ⟨fun howner => ?_, fun howner hfree => ?_, fun howner hused => ?_⟩, fun h he => ?_, ?_⟩
  · rw [hsession]
    exact PerPort.get_set_same _ p _
  · rw [hsession]
    exact PerPort.get_set_other _ _ hq
  · rw [hsession]
    rfl
  · exact congrArg SessionUnit.planState hsession
  · rw [hcommit]
    exact PerPort.get_set_same _ p _
  · rw [hcommit]
    exact PerPort.get_set_other _ _ hq
  · rw [State.slot, hcommit]
    exact (tabulate_get _ l).trans (retireFor_eq p (s.slot l))
  · rw [State.window, hcheck]
    exact tabulate_get _ n
  · cases hbuffer : (a.settleAndArbitrate.transfer.get p).buffer with
    | empty => rfl
    | fetching => rw [hbuffer] at hhandle; cases hhandle
    | valid => rw [hbuffer] at hhandle; cases hhandle
  · rw [hextent, he, Option.bind_some, if_neg howner]
  · rw [hextent, he, Option.bind_some, if_pos howner, if_pos (unreferenced_iff.2 hfree)]
  · have hused' : ¬e.unreferenced = true := fun hfree => by
      obtain ⟨q, hq⟩ := hused
      exact hq (unreferenced_iff.1 hfree q)
    rw [hextent, he, Option.bind_some, if_pos howner, if_neg hused']
    rfl
  · rw [hextent, he]
    rfl
  · obtain ⟨b, fetch, u, harbitrate, -⟩ := arbitrate_frame a.settle
    have ht : a.settleAndArbitrate = { a.settle with banks := b, scan := { a.settle.scan with fetch := fetch }, transfer := u } :=
      harbitrate
    rw [ht, settle_eq_of_no_end hend, hst, hframe]
    rfl

/-! ### Leave -/

/-- Leave: the answer, and the start of the teardown. -/
def leaving (p : PortId) (s : State) : Act := (answer p .ok [] s).andThen (teardownStart p .leave)

theorem exec_leave {r : Request} (hfor : asksFor s p r 0x03 0 = true) :
    exec (.leave p) s = .next (leaving p s).settleAndArbitrate :=
  congrArg Host.Outcome.next (serve_asksFor .joinedOnly (leaveBody p) Act.settleAndArbitrate hfor (by decide))

theorem teardownStart_ports (p : PortId) (s : State) : (teardownStart p cause s).st.ports = s.ports := by
  obtain ⟨⟨_, _, _, _, h, -⟩, -⟩ := teardownStart_frame p cause s
  rw [h]

theorem leaving_st (p : PortId) (s : State) : (leaving p s).st = (teardownStart p .leave s).st := by
  rw [leaving, Act.andThen_st, answer_st]

theorem leaving_ports (p : PortId) (s : State) : (leaving p s).st.ports = s.ports := by
  rw [leaving_st, teardownStart_ports]

theorem leaving_endsNoSession (p : PortId) (s : State) : (leaving p s).endsNoSession :=
  (endsNoSession_answer p .ok [] s).andThen (teardownStart_frame p .leave s).2

theorem leaving_sent (p : PortId) (s : State) {o : Origin} (ho : o ≠ .response) :
    (leaving p s).sent o = (teardownStart p .leave s).sent o := by
  rw [leaving, sent_andThen, sent_answer, if_neg ho.symm, List.nil_append]
  rfl

theorem answersTo_answer (p q : PortId) (v : Result) (payload : List Byte) (s : State) :
    answersTo q (answer p v payload s) = if q = p then [.respond p v payload] else [] := by
  rw [answersTo, sent_answer, if_pos rfl]
  by_cases hq : q = p
  · simp [hq]
  · simp [hq, eq_comm (a := p)]

theorem leaving_answers (p q : PortId) (s : State) :
    answersTo q (leaving p s) = (if q = p then [.respond p .ok []] else []) ++ (departureAnswer s p q).toList := by
  rw [leaving, answersTo_andThen, answersTo_answer]
  exact congrArg _ (teardownStart_answers .leave q)

theorem teardownStart_goesTo (p : PortId) (s : State) :
    ((teardownStart p cause s).out.map Prod.snd).filter (Msg.goesTo p) = (departureAnswer s p p).toList := by
  rw [filter_goesTo_of_sent (teardownStart_tagged p cause s) fun o ho m hm => teardownStart_sent_self cause ho hm,
    teardownStart_answers]

theorem leaving_port {r : Request} (hasks : asks s p r = true) :
    (leaving p s).settle.ports.get p =
      { s.ports.get p with
        requests := (s.ports.get p).requests.tail
        outbound := (s.ports.get p).outbound ++ [.response r.tag .ok []] } := by
  have hnone : departureAnswer s p p = none := by
    rw [departureAnswer, (asks_iff.1 hasks).2.2.2.1]
    rfl
  refine settle_port_answered hasks (leaving_endsNoSession p s) (leaving_ports p s) ?_
  rw [leaving, answer_then_goesTo_self, teardownStart_goesTo, hnone]
  rfl

/-! ### Expiry -/

/-- The state in which a port's teardown after an expiry starts: its queues are cut. -/
def cutQueues (p : PortId) (s : State) : State := s.setPort p (s.ports.get p).expire

theorem exec_leaseExpiry (hreset : s.resetN = true) (hjoined : s.sessionState p = .joined)
    (hlease : (s.session.records.get p).lease ≠ 0) (hcounter : (s.session.records.get p).counter = 0) :
    exec (.leaseExpiry p) s = .next (teardownStart p .expiry (cutQueues p s)).settleAndArbitrate := by
  have hdue : s.expiryDue p = true := by
    have hstate : (s.session.records.get p).state = .joined := hjoined
    simp only [State.expiryDue, Session.expiryDue, hstate, hcounter, decide_true, Bool.true_and, Bool.and_true]
    exact decide_eq_true hlease
  show Host.Outcome.next (if s.resetN then takeExpiry s p else s) = _
  rw [if_pos hreset, takeExpiry, if_pos hdue]
  rfl

theorem departureAnswer_eq_some {m : Msg} (h : departureAnswer s p q = some m) : ∃ v, m = .respond q v [] := by
  obtain ⟨j, -, hj⟩ := Option.bind_eq_some_iff.1 h
  split at hj
  · obtain ⟨v, -, rfl⟩ := Option.map_eq_some_iff.1 hj
    exact ⟨v, rfl⟩
  · cases hj

/-- The response to a request that was executing at the expiry is discarded when it comes. -/
theorem expire_takeResponse (c : PortController) (v : Result) : c.expire.takeResponse v [] =
    if c.executing = true ∧ c.requests ≠ [] then { c.expire with requests := [], executing := false, discard := false }
    else c.expire := by
  cases hexecuting : c.executing with
  | false => simp [PortController.takeResponse, PortController.expire, hexecuting]
  | true =>
    cases hrequests : c.requests with
    | nil => simp [PortController.takeResponse, PortController.expire, hexecuting, hrequests]
    | cons r rest => simp [PortController.takeResponse, PortController.expire, hexecuting, hrequests]

theorem expired_port (p : PortId) (s : State) :
    (teardownStart p .expiry (cutQueues p s)).settle.ports.get p =
      if (s.ports.get p).executing = true ∧ (s.ports.get p).requests ≠ [] ∧ departureAnswer s p p ≠ none then
        { (s.ports.get p).expire with requests := [], executing := false, discard := false }
      else (s.ports.get p).expire := by
  have hports : (teardownStart p .expiry (cutQueues p s)).st.ports.get p = (s.ports.get p).expire := by
    rw [teardownStart_ports]
    exact PerPort.get_set_same _ p _
  have hanswer : departureAnswer (cutQueues p s) p p = departureAnswer s p p := rfl
  have hmsgs := teardownStart_goesTo .expiry p (cutQueues p s)
  rw [hanswer] at hmsgs
  have hsettle := settle_port_of_single (teardownStart_frame p .expiry (cutQueues p s)).2 hmsgs
  rw [hports] at hsettle
  rw [hsettle]
  cases hdeparture : departureAnswer s p p with
  | none => simp
  | some m =>
    obtain ⟨v, rfl⟩ := departureAnswer_eq_some hdeparture
    show (s.ports.get p).expire.takeResponse v [] = _
    rw [expire_takeResponse]
    simp

end Sys2Proof.Machine
end

section
set_option Elab.async false

open Sys2Proof Sys2Proof.Machine

/-- Settles O18: one lemma per block of the teardown, for Leave behind its answer and for the expiry behind the cut of
the queues. -/
theorem leaveAndLeaseExpiryStartTheTeardown : Obligations.LeaveAndLeaseExpiryStartTheTeardown := by
  refine ⟨fun p r s hfor => ?_, fun p s hreset hjoined hlease hcounter => ?_⟩
  · have hasks := (asksFor_iff.1 hfor).1
    exact ⟨leaving p s, _, exec_leave hfor, rfl, leaving_ports p s,
      departureSends_of .leave fun o ho => leaving_sent p s ho,
      teardownStarted_of .leave (leaving_st p s) (leaving_endsNoSession p s),
      unitsAtDeparture_of .leave ((settle_transfer _).trans (congrArg State.transfer (leaving_st p s)))
        ((settle_banks _).trans (congrArg State.banks (leaving_st p s))), fun q => leaving_answers p q s,
      (congrArg (fun x => PerPort.get x p) (settleAndArbitrate_ports _)).trans (leaving_port hasks)⟩
  · have hports : ∀ q, q ≠ p → (cutQueues p s).ports.get q = s.ports.get q := fun q hq => PerPort.get_set_other _ _ hq
    have hsends : departureSends (cutQueues p s) p (teardownStart p .expiry (cutQueues p s)) :=
      departureSends_of .expiry fun _ _ => rfl
    have hstarted : teardownStarted (cutQueues p s) _ p .expiry :=
      teardownStarted_of .expiry rfl (teardownStart_frame p .expiry (cutQueues p s)).2
    have hunits : unitsAtDeparture (cutQueues p s) (teardownStart p .expiry (cutQueues p s)).settle p :=
      unitsAtDeparture_of .expiry (settle_transfer _) (settle_banks _)
    exact ⟨teardownStart p .expiry (cutQueues p s), _, exec_leaseExpiry hreset hjoined hlease hcounter, rfl,
      fun q hq => (congrArg (fun x => PerPort.get x q) (teardownStart_ports .expiry p _)).trans (hports q hq),
      hsends, hstarted, hunits, fun q => teardownStart_answers .expiry q,
      (congrArg (fun x => PerPort.get x p) (settleAndArbitrate_ports _)).trans (expired_port p s)⟩

end

section
/-! SUPPORT. An access completed, up to the hand-over of its bytes (R126, R138). -/

set_option Elab.async false

namespace Sys2Proof.Machine

variable {s : State} {a : Access} {b : BankId} {p q : PortId}

/-- The state in which the bytes of a completed access are handed over: the access is off its bank, the store and the
refresh engine have it, and the write notice went out. -/
def atCompletion (b : BankId) (a : Access) (s : State) : State :=
  sendWriteNotice a
    ((({ s with store := s.store.complete a } : State).setBank b { s.banks.get b with inFlight := none }).setRefresh b
      ((s.refresh.get b).complete (bankRowOf a.row)))

theorem completeAccess_eq (b : BankId) (a : Access) (s : State) :
    completeAccess b a s = handOver a b (handedOver s.store a) (atCompletion b a s) := rfl

theorem atCompletion_frame (b : BankId) (a : Access) (s : State) :
    ∃ banks transfer, atCompletion b a s =
      { s with
        banks := banks, transfer := transfer, store := s.store.complete a
        refresh := s.refresh.set b ((s.refresh.get b).complete (bankRowOf a.row)) } := by
  obtain ⟨banks, transfer, h, -⟩ := sendWriteNotice_frame a
    ((({ s with store := s.store.complete a } : State).setBank b { s.banks.get b with inFlight := none }).setRefresh b
      ((s.refresh.get b).complete (bankRowOf a.row)))
  exact ⟨banks, transfer, h⟩

theorem atCompletion_extents (b : BankId) (a : Access) (s : State) : (atCompletion b a s).extents = s.extents := by
  obtain ⟨_, _, h⟩ := atCompletion_frame b a s
  rw [h]

theorem atCompletion_ports (b : BankId) (a : Access) (s : State) : (atCompletion b a s).ports = s.ports := by
  obtain ⟨_, _, h⟩ := atCompletion_frame b a s
  rw [h]

theorem atCompletion_session (b : BankId) (a : Access) (s : State) : (atCompletion b a s).session = s.session := by
  obtain ⟨_, _, h⟩ := atCompletion_frame b a s
  rw [h]

theorem atCompletion_extent (b : BankId) (a : Access) (s : State) (h : Fin 32) :
    (atCompletion b a s).extent h = s.extent h := by
  rw [State.extent, atCompletion_extents, State.extent]

/-- A read sends no write notice. -/
theorem atCompletion_read {lo len : Nat} (hkind : a.kind = .read lo len) :
    atCompletion b a s = { s with
      banks := s.banks.set b { s.banks.get b with inFlight := none }
      refresh := s.refresh.set b ((s.refresh.get b).complete (bankRowOf a.row)) } := by
  have hstore : s.store.complete a = s.store := by rw [Store.complete, hkind]
  rw [atCompletion, sendWriteNotice, hkind, hstore]
  rfl

end Sys2Proof.Machine
end

section
/-! PROOF. Clear writes (R106, R107). -/

set_option Elab.async false

namespace Sys2Proof.Machine

variable {s : State} {a : Access} {b : BankId} {p : PortId} {h : Fin 32} {rest : List (Fin 32)} {e : Extent}

theorem completeAccess_clear (hrequester : a.requester = .clear p) (hwanted : a.wanted = true) :
    completeAccess b a s = clearCompleted p a.row (atCompletion b a s) := by
  rw [completeAccess_eq, handOver, if_pos hwanted, hrequester]

theorem clearCompleted_head (hlist : s.extents.clearLists.get p = h :: rest) (he : s.extent h = some e) :
    clearCompleted p (e.firstRow + e.progress) s =
      if e.progress + 1 < e.rows then .quiet (s.setExtent h (some { e with progress := e.progress + 1 }))
      else (Act.quiet ((s.setExtent h (some { e with progress := e.rows, state := .ready })).setClearList p rest)).sendAll
        .extents e.owner.toList (.clearDone h) := by
  simp only [clearCompleted, hlist, he, if_true]

/-- The extents after a clear write of the extent at the head of the clear list. -/
theorem clear_going (hlist : s.extents.clearLists.get p = h :: rest) (he : s.extent h = some e)
    (hrequester : a.requester = .clear p) (hwanted : a.wanted = true) (hrow : a.row = e.firstRow + e.progress)
    (hmore : e.progress + 1 < e.rows) :
    completeAccess b a s =
      .quiet ((atCompletion b a s).setExtent h (some { e with progress := e.progress + 1 })) := by
  rw [completeAccess_clear hrequester hwanted, hrow, clearCompleted_head (by rw [atCompletion_extents]; exact hlist)
    (by rw [atCompletion_extent]; exact he), if_pos hmore]

theorem clear_done (hlist : s.extents.clearLists.get p = h :: rest) (he : s.extent h = some e)
    (hrequester : a.requester = .clear p) (hwanted : a.wanted = true) (hrow : a.row = e.firstRow + e.progress)
    (hlast : ¬e.progress + 1 < e.rows) :
    completeAccess b a s =
      (Act.quiet (((atCompletion b a s).setExtent h (some { e with progress := e.rows, state := .ready })).setClearList p
        rest)).sendAll .extents e.owner.toList (.clearDone h) := by
  rw [completeAccess_clear hrequester hwanted, hrow, clearCompleted_head (by rw [atCompletion_extents]; exact hlist)
    (by rw [atCompletion_extent]; exact he), if_neg hlast]

/-- CLEAR_DONE goes to the owner of the extent, if it has one. -/
theorem clearDone_port (b : BankId) (a : Access) (s : State) (v : Option Extent) (o : Option PortId) (q : PortId) :
    (((Act.quiet (((atCompletion b a s).setExtent h v).setClearList p rest)).sendAll .extents o.toList
      (.clearDone h)).settle).ports.get q =
      if o = some q ∧ (s.session.records.get q).takesEvents = true then (s.ports.get q).takeEvent (.clearDone h)
      else s.ports.get q := by
  have hnodup : o.toList.Nodup := by cases o <;> simp
  have hmem : q ∈ o.toList ↔ o = some q := by cases o <;> simp [eq_comm]
  have hports : (((atCompletion b a s).setExtent h v).setClearList p rest).ports = s.ports := atCompletion_ports b a s
  have hsession : (((atCompletion b a s).setExtent h v).setClearList p rest).session = s.session :=
    atCompletion_session b a s
  rw [(settle_sendAll hnodup .extents _).2 q, hports, hsession]
  simp only [hmem]

end Sys2Proof.Machine
end

section
set_option Elab.async false

open Sys2Proof Sys2Proof.Machine

/-- Settles O52: the two ends of `clearCompleted` at the head of the clear list. -/
theorem clearingAdvancesRowByRow : Obligations.ClearingAdvancesRowByRow := by
  intro b s a p h rest e hready hflight hrequester hwanted hlist he hrow
  have hexec := exec_accessCompletion hready hflight
  have hother : ∀ (x : Extent) (k : Fin 32), k ≠ h → ((atCompletion b a s).setExtent h (some x)).extent k = s.extent k :=
    fun x k hk => (State.setExtent_extent_other _ _ hk).trans (atCompletion_extent b a s k)
  refine ⟨_, hexec, fun k hk => ?_, fun hmore => ?_, fun hlast => ?_⟩
  · rw [settleAndArbitrate_extent]
    by_cases hmore : e.progress + 1 < e.rows
    · rw [clear_going hlist he hrequester hwanted hrow hmore]
      exact hother _ k hk
    · rw [clear_done hlist he hrequester hwanted hrow hmore]
      exact hother _ k hk
  · rw [clear_going hlist he hrequester hwanted hrow hmore]
    refine ⟨?_, ?_, ?_⟩
    · rw [settleAndArbitrate_extent]
      exact State.setExtent_extent_same _ h _
    · rw [settleAndArbitrate_extents]
      show (atCompletion b a s).extents.clearLists = _
      rw [atCompletion_extents]
    · rw [settleAndArbitrate_ports, settle_quiet]
      exact atCompletion_ports b a s
  · rw [clear_done hlist he hrequester hwanted hrow (by omega)]
    refine ⟨?_, ?_, fun q => ?_⟩
    · rw [settleAndArbitrate_extent]
      exact State.setExtent_extent_same _ h _
    · rw [settleAndArbitrate_extents]
      show (atCompletion b a s).extents.clearLists.set p rest = _
      rw [atCompletion_extents]
    · rw [settleAndArbitrate_ports, clearDone_port]

end

section
/-! SUPPORT. What the write notice of a completed access makes of each transfer unit (R141, R148). -/

set_option Elab.async false

namespace Sys2Proof.Machine

variable {s : State} {a : Access} {b : BankId} {p q : PortId}

/-- A transfer unit whose buffer is emptied. -/
def TransferUnit.emptied (u : TransferUnit) (row : Fin 32 → Nat) : TransferUnit :=
  { u with buffer := .empty, job := u.job.map fun j => j.standAlone (row j.handle) }

theorem bufferMeets_congr {t : State} (h : t.extents = s.extents) (u : TransferUnit) (g lo hi : Nat) :
    bufferMeets t u g lo hi = bufferMeets s u g lo hi := by
  unfold bufferMeets
  simp only [State.extent, h]

theorem takeWriteNotice_extents (g lo hi : Nat) (s : State) (p : PortId) :
    (takeWriteNotice g lo hi s p).extents = s.extents := by
  unfold takeWriteNotice
  split
  · obtain ⟨_, _, h, -⟩ := emptyBuffer_frame p s
    rw [h]
  · rfl

/-- The notice of a write empties the buffers that share a byte with it. -/
theorem noticeAll_unit (g lo hi : Nat) (q : PortId) (l : List PortId) (hl : l.Nodup) (s : State) :
    (l.foldl (takeWriteNotice g lo hi) s).transfer.get q =
      if q ∈ l ∧ bufferMeets s (s.transfer.get q) g lo hi = true then (s.transfer.get q).emptied s.firstRowOf
      else s.transfer.get q := by
  induction l generalizing s with
  | nil => rfl
  | cons p l ih =>
    obtain ⟨hp, hl⟩ := List.nodup_cons.1 hl
    have hextents := takeWriteNotice_extents g lo hi s p
    rw [List.foldl_cons, ih hl, bufferMeets_congr hextents, firstRowOf_of_extents hextents]
    by_cases hq : q = p
    · subst hq
      rw [if_neg fun hmem => hp hmem.1, takeWriteNotice_unit]
      simp only [List.mem_cons_self, true_and]
      rfl
    · rw [takeWriteNotice_other g lo hi s hq]
      simp only [List.mem_cons, hq, false_or]

theorem noticeWrite_unit (g lo hi : Nat) (q : PortId) (s : State) : (noticeWrite g lo hi s).transfer.get q =
    if bufferMeets s (s.transfer.get q) g lo hi = true then (s.transfer.get q).emptied s.firstRowOf
    else s.transfer.get q := by
  have hall := noticeAll_unit g lo hi q allPorts (by decide) s
  simp only [mem_allPorts, true_and] at hall
  exact hall

/-- The fetches given up with those buffers. -/
theorem noticeAll_inFlight (g lo hi : Nat) (q : PortId) (l : List PortId) (hl : l.Nodup) (s : State) :
    inFlightGiven s (l.foldl (takeWriteNotice g lo hi) s) q
      (decide (q ∈ l) && (bufferMeets s (s.transfer.get q) g lo hi && (s.transfer.get q).buffer.isFetching)) := by
  induction l generalizing s with
  | nil => exact inFlightGiven_refl s q
  | cons p l ih =>
    obtain ⟨hp, hl⟩ := List.nodup_cons.1 hl
    have hrest := ih hl (takeWriteNotice g lo hi s p)
    rw [bufferMeets_congr (takeWriteNotice_extents g lo hi s p)] at hrest
    rw [List.foldl_cons]
    by_cases hq : q = p
    · subst hq
      rw [decide_eq_false hp, Bool.false_and] at hrest
      have hone : inFlightGiven s (takeWriteNotice g lo hi s q) q
          (bufferMeets s (s.transfer.get q) g lo hi && (s.transfer.get q).buffer.isFetching) := by
        unfold takeWriteNotice
        cases bufferMeets s (s.transfer.get q) g lo hi with
        | true => exact inFlightGiven_emptyBuffer q s
        | false => exact inFlightGiven_refl s q
      have hboth := hone.trans hrest
      rw [Bool.or_false] at hboth
      rwa [decide_eq_true List.mem_cons_self, Bool.true_and]
    · rw [takeWriteNotice_other g lo hi s hq] at hrest
      have hone : inFlightGiven s (takeWriteNotice g lo hi s p) q false := by
        unfold takeWriteNotice
        split
        · exact inFlightGiven_emptyBuffer_other s hq
        · exact inFlightGiven_refl s q
      have hmem : decide (q ∈ p :: l) = decide (q ∈ l) := by simp [hq]
      rw [hmem]
      exact hone.trans hrest

theorem noticeWrite_inFlight (g lo hi : Nat) (q : PortId) (s : State) : inFlightGiven s (noticeWrite g lo hi s) q
    (bufferMeets s (s.transfer.get q) g lo hi && (s.transfer.get q).buffer.isFetching) := by
  have hall := noticeAll_inFlight g lo hi q allPorts (by decide) s
  rw [decide_eq_true (mem_allPorts q), Bool.true_and] at hall
  exact hall

/-- The write notice leaves a cursor, and a transfer that does not wait for the buffer. -/
theorem atCompletion_unit (b : BankId) (a : Access) (s : State) (q : PortId) :
    (atCompletion b a s).transfer.get q = s.transfer.get q ∨
      (atCompletion b a s).transfer.get q = (s.transfer.get q).emptied s.firstRowOf := by
  have hnotice : ∀ g lo hi (t : State), t.transfer = s.transfer → t.extents = s.extents →
      (noticeWrite g lo hi t).transfer.get q = s.transfer.get q ∨
        (noticeWrite g lo hi t).transfer.get q = (s.transfer.get q).emptied s.firstRowOf := by
    intro g lo hi t htransfer hextents
    rw [noticeWrite_unit, htransfer, firstRowOf_of_extents hextents]
    split
    · exact .inr rfl
    · exact .inl rfl
  unfold atCompletion sendWriteNotice
  split
  · exact hnotice _ _ _ _ rfl rfl
  · exact hnotice _ _ _ _ rfl rfl
  · exact .inl rfl

theorem atCompletion_cursor (b : BankId) (a : Access) (s : State) (q : PortId) :
    ((atCompletion b a s).transfer.get q).cursor = (s.transfer.get q).cursor := by
  rcases atCompletion_unit b a s q with h | h <;> rw [h]
  rfl

theorem atCompletion_job {j : Job} (hj : (s.transfer.get q).job = some j) (hkind : ∀ n, j.kind ≠ .readBuffered n) :
    ((atCompletion b a s).transfer.get q).job = some j := by
  rcases atCompletion_unit b a s q with h | h <;> rw [h]
  · exact hj
  · rw [TransferUnit.emptied, hj, Option.map_some, standAlone_of_kind hkind]

end Sys2Proof.Machine
end

section
/-! PROOF. The row accesses of a transfer and of read-ahead (R142 to R153). -/

set_option Elab.async false

namespace Sys2Proof.Machine

variable {s : State} {a : Access} {b : BankId} {p : PortId} {j : Job}

/-! ### The end of a transfer -/

theorem startReadAhead_keeps (p : PortId) (s : State) :
    (∃ buffer, startReadAhead p s = s.setTransfer p { s.transfer.get p with buffer := buffer }) := by
  have hsame : s = s.setTransfer p { s.transfer.get p with buffer := (s.transfer.get p).buffer } :=
    (congrArg (fun transfer => { s with transfer }) (PerPort.set_get_self s.transfer p)).symm
  unfold startReadAhead
  dsimp only
  split
  · exact ⟨_, hsame⟩
  · split
    · exact ⟨_, hsame⟩
    · split
      · exact ⟨_, hsame⟩
      · exact ⟨_, rfl⟩

/-- What a Read that ends leaves of its transfer unit, and what it sends. -/
structure ReadEnds (s : State) (p : PortId) (j : Job) (bytes : List Byte) (act : Act) : Prop where
  out : act.out = [(.response, .respond p (damagedIf j.damage) bytes)]
  ports : act.st.ports = s.ports
  job : (act.st.transfer.get p).job = none
  detached : j.detached = true → (act.st.transfer.get p).cursor = (s.transfer.get p).cursor
  attached : j.detached = false →
    (act.st.transfer.get p).cursor = (s.transfer.get p).cursor.map fun c => { c with offset := c.offset + bytes.length }
  readAhead : j.detached = false → ∀ c e, (s.transfer.get p).cursor = some c → s.extent c.handle = some e →
    (act.st.transfer.get p).buffer = readAheadFrom c.handle e (c.offset + bytes.length)

theorem finishRead_ends (p : PortId) (j : Job) (bytes : List Byte) (s : State) :
    ReadEnds s p j bytes (finishRead p j bytes s) := by
  cases hdetached : j.detached with
  | true =>
    have heq : finishRead p j bytes s =
        (Act.quiet (dropJob p s)).send .response (.respond p (damagedIf j.damage) bytes) := by
      rw [finishRead, hdetached]
      rfl
    rw [heq]
    exact ⟨rfl, rfl, by simp [dropJob, State.setTransfer], fun _ => by simp [dropJob, State.setTransfer],
      fun h => by simp [hdetached] at h, fun h => by simp [hdetached] at h⟩
  | false =>
    obtain ⟨banks, job, hempty, -⟩ := emptyBuffer_frame p (dropJob p s)
    have heq : finishRead p j bytes s =
        (Act.quiet (startReadAhead p (advanceCursor p bytes.length (emptyBuffer p (dropJob p s))))).send .response
          (.respond p (damagedIf j.damage) bytes) := by
      rw [finishRead, hdetached]
      rfl
    have hunit : (advanceCursor p bytes.length (emptyBuffer p (dropJob p s))).transfer.get p =
        { cursor := (s.transfer.get p).cursor.map fun c => { c with offset := c.offset + bytes.length }
          buffer := .empty, job := none } := by
      simp [advanceCursor, State.setTransfer, emptyBuffer_unit, dropJob]
    obtain ⟨buffer, hstart⟩ := startReadAhead_keeps p (advanceCursor p bytes.length (emptyBuffer p (dropJob p s)))
    have hports : (advanceCursor p bytes.length (emptyBuffer p (dropJob p s))).ports = s.ports := by
      rw [hempty]
      rfl
    refine ⟨by rw [heq]; rfl, ?_, ?_, fun h => by simp [hdetached] at h, fun _ => ?_, fun _ c e hcursor hextent => ?_⟩
    · rw [heq, Act.send_st, Act.quiet_st, hstart]
      exact hports
    · rw [heq, Act.send_st, Act.quiet_st, hstart, hunit]
      simp [State.setTransfer]
    · rw [heq, Act.send_st, Act.quiet_st, hstart, hunit]
      simp [State.setTransfer]
    · rw [finishRead_attached hdetached hcursor hextent]
      simp

theorem finishJob_goesOn (hj : (s.transfer.get p).job = some j) (hwaits : allFinished j.parts = false) :
    finishJob p s = .quiet s := by
  rw [finishJob, hj]
  cases hkind : j.kind <;> simp [hkind, hwaits]

theorem finishJob_read {n : Nat} (hj : (s.transfer.get p).job = some j) (hkind : j.kind = .read n)
    (hlast : allFinished j.parts = true) : finishJob p s = finishRead p j (partsBytes j.parts) s := by
  rw [finishJob, hj]
  simp only [hkind, hlast, if_true]

theorem finishJob_write {n : Nat} (hj : (s.transfer.get p).job = some j) (hkind : j.kind = .write n)
    (hlast : allFinished j.parts = true) :
    finishJob p s = (Act.quiet (if j.detached then dropJob p s else advanceCursor p n (dropJob p s))).send .response
      (.respond p .ok []) := by
  rw [finishJob, hj]
  simp only [hkind, hlast, if_true]

theorem finishJob_update (hj : (s.transfer.get p).job = some j) (hkind : j.kind = .update)
    (hlast : allFinished j.parts = true) :
    finishJob p s = (Act.quiet (dropJob p s)).send .response
      (.respond p (damagedIf (s.extentDamaged j.handle)) (partsBytes j.parts)) := by
  rw [finishJob, hj]
  simp only [hkind, hlast, if_true]

/-! ### Parts -/

variable {before after : List Part} {t0 : Part} {bytes : List Byte}

theorem allFinished_done (bytes : List Byte) :
    allFinished (before ++ { t0 with status := .done bytes } :: after) = true ↔
      ∀ x ∈ before ++ after, x.finished = true := by
  simp only [allFinished, List.all_append, List.all_cons, Part.finished, Bool.and_eq_true, List.all_eq_true, true_and,
    List.mem_append]
  exact ⟨fun h x hx => hx.elim (h.1 x) (h.2 x), fun h => ⟨fun x hx => h x (.inl hx), fun x hx => h x (.inr hx)⟩⟩

theorem partsBytes_done (bytes : List Byte) :
    partsBytes (before ++ { t0 with status := .done bytes } :: after) =
      before.flatMap Part.bytes ++ bytes ++ after.flatMap Part.bytes := by
  simp [partsBytes, Part.bytes]

theorem grantedAt_iff (x : Part) (b : BankId) : x.grantedAt b = true ↔ x.status = .granted ∧ bankOfRow x.row = b := by
  simp [Part.grantedAt]

/-! ### The hand-over -/

/-- The part whose access is completed is the first in flight at the bank. -/
structure FirstAt (b : BankId) (before : List Part) (t0 : Part) : Prop where
  granted : t0.grantedAt b = true
  first : ∀ x ∈ before, x.grantedAt b = false

theorem firstAt_of (hstatus : t0.status = .granted) (hrow : bankOfRow t0.row = b)
    (hfirst : ∀ x ∈ before, ¬(x.status = .granted ∧ bankOfRow x.row = b)) : FirstAt b before t0 :=
  ⟨(grantedAt_iff t0 b).2 ⟨hstatus, hrow⟩, fun x hx => by
    rw [← Bool.not_eq_true, grantedAt_iff]
    exact hfirst x hx⟩

/-- The job with the bytes of the completed access handed over. -/
def Job.handed (j : Job) (before : List Part) (t0 : Part) (after : List Part) (bytes : List Byte) : Job :=
  { j with parts := before ++ { t0 with status := .done bytes } :: after }

theorem transferCompleted_job (hj : (s.transfer.get p).job = some j) (hparts : j.parts = before ++ t0 :: after)
    (hfirst : FirstAt b before t0) :
    transferCompleted p b bytes s = finishJob p
      (s.setTransfer p { s.transfer.get p with job := some (j.handed before t0 after bytes) }) := by
  have hany : (jobParts (s.transfer.get p).job).any (Part.grantedAt b) = true := by
    rw [hj, jobParts, hparts]
    simp [hfirst.granted]
  rw [transferCompleted, if_pos hany, hj, Option.map_some, hparts, markDone_at hfirst.granted hfirst.first]
  rfl

theorem transferCompleted_fetch {h : Fin 32} {start len : Nat}
    (hbuffer : (s.transfer.get p).buffer = .fetching h start len (before ++ t0 :: after))
    (hnone : ∀ j, (s.transfer.get p).job = some j → ∀ x ∈ j.parts, ¬(x.status = .granted ∧ bankOfRow x.row = b))
    (hfirst : FirstAt b before t0) :
    transferCompleted p b bytes s = finishFetch p
      (s.setTransfer p { s.transfer.get p with
        buffer := .fetching h start len (before ++ { t0 with status := .done bytes } :: after) }) := by
  have hany : ¬(jobParts (s.transfer.get p).job).any (Part.grantedAt b) = true := by
    rw [List.any_eq_true]
    rintro ⟨x, hx, hgranted⟩
    cases hj : (s.transfer.get p).job with
    | none =>
      rw [hj] at hx
      cases hx
    | some j =>
      rw [hj] at hx
      exact hnone j hj x hx ((grantedAt_iff x b).1 hgranted)
  rw [transferCompleted, if_neg hany, hbuffer, ReadAhead.completeAt, markDone_at hfirst.granted hfirst.first]

theorem completeAccess_transfer (hrequester : a.requester = .transfer p) (hwanted : a.wanted = true) :
    completeAccess b a s = transferCompleted p b (handedOver s.store a) (atCompletion b a s) := by
  rw [completeAccess_eq, handOver, if_pos hwanted, hrequester]

/-- One answer, once it arrived. -/
theorem settle_one_answer {act : Act} {result : Result} {payload : List Byte} {r : Request} {c : PerPort PortController}
    (hout : act.out = [(.response, .respond p result payload)]) (hports : act.st.ports = c)
    (hdiscard : (c.get p).discard = false) (hhead : (c.get p).requests.head? = some r) :
    act.settle.ports = c.set p
      { c.get p with
        requests := (c.get p).requests.tail, executing := false
        outbound := (c.get p).outbound ++ [.response r.tag result payload] } := by
  obtain ⟨rest, hrequests⟩ := List.head?_eq_some_iff.1 hhead
  simp [Act.settle, hout, State.deliver, State.setPort, hports, PortController.takeResponse, hrequests, hdiscard]

theorem finishFetch_goesOn {h : Fin 32} {start len : Nat} {parts : List Part}
    (hbuffer : (s.transfer.get p).buffer = .fetching h start len parts) (hwaits : allFinished parts = false) :
    finishFetch p s = .quiet s := by
  rw [finishFetch, hbuffer]
  simp only [hwaits, Bool.false_eq_true, if_false]

/-- The last access of a fetch makes the buffer VALID. -/
theorem finishFetch_valid {h : Fin 32} {start len : Nat} {parts : List Part}
    (hbuffer : (s.transfer.get p).buffer = .fetching h start len parts) (hlast : allFinished parts = true)
    (hnone : ∀ j n, (s.transfer.get p).job = some j → j.kind ≠ .readBuffered n) :
    finishFetch p s =
      .quiet (s.setTransfer p { s.transfer.get p with buffer := .valid h start (partsBytes parts) }) := by
  rw [finishFetch, hbuffer]
  simp only [hlast, if_true]
  cases hj : (s.transfer.get p).job with
  | none => rfl
  | some j =>
    cases hkind : j.kind with
    | readBuffered n => exact absurd hkind (hnone j n hj)
    | read n => simp only [hkind]
    | write n => simp only [hkind]
    | update => simp only [hkind]

/-- A Read that waits for the buffer is served from it. -/
theorem finishFetch_serves {h : Fin 32} {start len n : Nat} {parts : List Part}
    (hbuffer : (s.transfer.get p).buffer = .fetching h start len parts) (hlast : allFinished parts = true)
    (hj : (s.transfer.get p).job = some j) (hkind : j.kind = .readBuffered n) :
    finishFetch p s = finishRead p j (((partsBytes parts).drop (j.offset - start)).take n)
      (s.setTransfer p { s.transfer.get p with buffer := .valid h start (partsBytes parts) }) := by
  rw [finishFetch, hbuffer]
  simp only [hlast, if_true, hj, hkind]

end Sys2Proof.Machine
end

section
/-! PROOF. The last access of a transfer, and of a fetch (R142 to R153). -/

set_option Elab.async false

namespace Sys2Proof.Machine

variable {s : State} {a : Access} {b : BankId} {p : PortId} {j : Job} {before after : List Part} {t0 : Part}

/-- The state in which the transfer's accesses are looked at: its job has the bytes. -/
def jobHanded (b : BankId) (a : Access) (s : State) (p : PortId) (j : Job) : State :=
  (atCompletion b a s).setTransfer p { (atCompletion b a s).transfer.get p with job := some j }

theorem jobHanded_unit (b : BankId) (a : Access) (s : State) (p : PortId) (j : Job) :
    (jobHanded b a s p j).transfer.get p = { (atCompletion b a s).transfer.get p with job := some j } :=
  PerPort.get_set_same _ p _

theorem jobHanded_cursor (b : BankId) (a : Access) (s : State) (p : PortId) (j : Job) :
    ((jobHanded b a s p j).transfer.get p).cursor = (s.transfer.get p).cursor := by
  rw [jobHanded_unit]
  exact atCompletion_cursor b a s p

theorem jobHanded_job (b : BankId) (a : Access) (s : State) (p : PortId) (j : Job) :
    ((jobHanded b a s p j).transfer.get p).job = some j := by
  rw [jobHanded_unit]

theorem jobHanded_ports (b : BankId) (a : Access) (s : State) (p : PortId) (j : Job) :
    (jobHanded b a s p j).ports = s.ports := atCompletion_ports b a s

theorem jobHanded_extent (b : BankId) (a : Access) (s : State) (p : PortId) (j : Job) (h : Fin 32) :
    (jobHanded b a s p j).extent h = s.extent h := atCompletion_extent b a s h

/-- What the job's access hands over to it. -/
theorem completeAccess_job (hrequester : a.requester = .transfer p) (hwanted : a.wanted = true)
    (hfirst : FirstAt b before t0) (hj : (s.transfer.get p).job = some j) (hparts : j.parts = before ++ t0 :: after)
    (hkind : ∀ n, j.kind ≠ .readBuffered n) :
    completeAccess b a s =
      finishJob p (jobHanded b a s p (j.handed before t0 after (handedOver s.store a))) := by
  rw [completeAccess_transfer hrequester hwanted, transferCompleted_job (atCompletion_job hj hkind) hparts hfirst]
  rfl

variable {u : State} {r : Request}

/-- A Read served: its request is answered, and its transfer unit goes on from where it ended. -/
theorem readEnds_settle {bytes : List Byte} {act : Act} (hends : ReadEnds u p j bytes act)
    (hports : u.ports = s.ports) (hcursor : (u.transfer.get p).cursor = (s.transfer.get p).cursor)
    (hextent : ∀ h, u.extent h = s.extent h) :
    ((s.ports.get p).discard = false → (s.ports.get p).requests.head? = some r →
      act.settle.ports = s.ports.set p
        { s.ports.get p with
          requests := (s.ports.get p).requests.tail, executing := false
          outbound := (s.ports.get p).outbound ++
            [.response r.tag (if j.damage then .damaged else .ok) bytes] }) ∧
    (act.settle.transfer.get p).job = none ∧
    (j.detached = true → (act.settle.transfer.get p).cursor = (s.transfer.get p).cursor) ∧
    (j.detached = false →
      (act.settle.transfer.get p).cursor =
        (s.transfer.get p).cursor.map (fun c => { c with offset := c.offset + bytes.length }) ∧
      ∀ c e, (s.transfer.get p).cursor = some c → s.extent c.handle = some e →
        (act.settle.transfer.get p).buffer = readAheadFrom c.handle e (c.offset + bytes.length)) := by
  rw [settle_transfer]
  refine ⟨fun hdiscard hhead => settle_one_answer hends.out (hends.ports.trans hports) hdiscard hhead, hends.job,
    fun hdetached => (hends.detached hdetached).trans hcursor, fun hattached => ⟨?_, fun c e hc he => ?_⟩⟩
  · rw [hends.attached hattached, hcursor]
  · exact hends.readAhead hattached c e (hcursor.trans hc) ((hextent _).trans he)

theorem dropJob_unit (p : PortId) (s : State) :
    (dropJob p s).transfer.get p = { s.transfer.get p with job := none } := PerPort.get_set_same _ p _

/-- A Write at its last access. -/
theorem write_settle {n : Nat} (hj : (u.transfer.get p).job = some j) (hkind : j.kind = .write n)
    (hlast : allFinished j.parts = true) (hports : u.ports = s.ports)
    (hcursor : (u.transfer.get p).cursor = (s.transfer.get p).cursor) :
    ((s.ports.get p).discard = false → (s.ports.get p).requests.head? = some r →
      (finishJob p u).settle.ports = s.ports.set p
        { s.ports.get p with
          requests := (s.ports.get p).requests.tail, executing := false
          outbound := (s.ports.get p).outbound ++ [.response r.tag .ok []] }) ∧
    ((finishJob p u).settle.transfer.get p).job = none ∧
    ((finishJob p u).settle.transfer.get p).cursor = if j.detached then (s.transfer.get p).cursor
      else (s.transfer.get p).cursor.map fun c => { c with offset := c.offset + n } := by
  rw [settle_transfer, finishJob_write hj hkind hlast]
  refine ⟨fun hdiscard hhead => settle_one_answer rfl ?_ hdiscard hhead, ?_, ?_⟩
  · cases j.detached <;> exact hports
  · cases j.detached <;> simp [advanceCursor, dropJob_unit, State.setTransfer]
  · cases j.detached <;> simp [advanceCursor, dropJob_unit, State.setTransfer, hcursor]

/-- An Update at its access. -/
theorem update_settle (hj : (u.transfer.get p).job = some j) (hkind : j.kind = .update)
    (hlast : allFinished j.parts = true) (hports : u.ports = s.ports)
    (hcursor : (u.transfer.get p).cursor = (s.transfer.get p).cursor) :
    ((s.ports.get p).discard = false → (s.ports.get p).requests.head? = some r →
      (finishJob p u).settle.ports = s.ports.set p
        { s.ports.get p with
          requests := (s.ports.get p).requests.tail, executing := false
          outbound := (s.ports.get p).outbound ++
            [.response r.tag (damagedIf (u.extentDamaged j.handle)) (partsBytes j.parts)] }) ∧
    ((finishJob p u).settle.transfer.get p).job = none ∧
    ((finishJob p u).settle.transfer.get p).cursor = (s.transfer.get p).cursor := by
  rw [settle_transfer, finishJob_update hj hkind hlast]
  refine ⟨fun hdiscard hhead => settle_one_answer rfl hports hdiscard hhead, ?_, ?_⟩
  · simp [dropJob_unit]
  · simp [dropJob_unit, hcursor]

theorem extentDamaged_congr {h : Fin 32} (hextent : u.extent h = s.extent h) :
    u.extentDamaged h = s.extentDamaged h := by
  rw [State.extentDamaged, State.extentDamaged, hextent]

theorem completeAccess_fetch {h : Fin 32} {start len lo m : Nat} (hrequester : a.requester = .transfer p)
    (hwanted : a.wanted = true) (hfirst : FirstAt b before t0) (hkind : a.kind = .read lo m)
    (hbuffer : (s.transfer.get p).buffer = .fetching h start len (before ++ t0 :: after))
    (hnone : ∀ j, (s.transfer.get p).job = some j → ∀ x ∈ j.parts, ¬(x.status = .granted ∧ bankOfRow x.row = b)) :
    completeAccess b a s = finishFetch p ((atCompletion b a s).setTransfer p { s.transfer.get p with
      buffer := .fetching h start len
        (before ++ { t0 with status := .done (s.store.bytesAt a.row lo m) } :: after) }) := by
  have htransfer : (atCompletion b a s).transfer = s.transfer := by rw [atCompletion_read hkind]
  have hgiven : handedOver s.store a = s.store.bytesAt a.row lo m := by rw [handedOver, hkind]
  rw [completeAccess_transfer hrequester hwanted,
    transferCompleted_fetch (by rw [htransfer]; exact hbuffer) (by rw [htransfer]; exact hnone) hfirst, hgiven,
    htransfer]

end Sys2Proof.Machine
end

section
set_option Elab.async false

open Sys2Proof Sys2Proof.Machine

/-- Settles O51: the part completed is the first in flight at the bank; what follows depends on whether it was the
last. -/
theorem transfersEndAtTheLastCompletion : Obligations.TransfersEndAtTheLastCompletion := by
  intro b s a p before after t0 hready hflight hrequester hwanted hstatus hrow hbefore last given answered served
  have hfirst := firstAt_of hstatus hrow hbefore
  have hexec := exec_accessCompletion hready hflight
  have hgiven : handedOver s.store a = given := by
    unfold handedOver
    cases hk : a.kind <;> simp only [given, hk]
  refine ⟨fun j hj hparts hkind => ?_, fun h start len lo m hbuffer hread hnone => ?_⟩
  · have hcomplete := completeAccess_job hrequester hwanted hfirst hj hparts hkind
    rw [hgiven] at hcomplete
    generalize hhanded : j.handed before t0 after given = j' at hcomplete
    have hjob := jobHanded_job b a s p j'
    have hports := jobHanded_ports b a s p j'
    have hcursor := jobHanded_cursor b a s p j'
    have hextent := jobHanded_extent b a s p j'
    have hlastiff : allFinished j'.parts = true ↔ last := by subst hhanded; exact allFinished_done given
    have hkind' : j'.kind = j.kind := by subst hhanded; rfl
    rw [hcomplete] at hexec
    refine ⟨_, hexec, fun hmore => ?_, fun n r hlast hwrite => ?_, fun lo op operand r hlast hupdate hak hb ha => ?_,
      fun n lo len r hlast hread hak => ?_⟩
    · have hwaits : allFinished j'.parts = false := Bool.eq_false_iff.2 (mt hlastiff.1 hmore)
      rw [finishJob_goesOn hjob hwaits, settle_quiet]
      refine ⟨hports, hcursor, ?_⟩
      subst hhanded
      exact hjob
    · have hwritten := write_settle (s := s) (r := r) hjob (hkind'.trans hwrite) (hlastiff.2 hlast) hports hcursor
      subst hhanded
      exact hwritten
    · have hupdated := update_settle (s := s) (r := r) hjob (hkind'.trans hupdate) (hlastiff.2 hlast) hports hcursor
      have hbytes : partsBytes j'.parts = s.store.bytesAt a.row lo 4 := by
        subst hhanded hb ha
        rw [← hgiven, handedOver, hak]
        simp [Job.handed, partsBytes, Part.bytes]
      have hhandle : j'.handle = j.handle := by subst hhanded; rfl
      rw [hbytes, hhandle, extentDamaged_congr (hextent j.handle)] at hupdated
      exact hupdated
    · have hserved := readEnds_settle (s := s) (r := r) (finishRead_ends p j' (partsBytes j'.parts) _) hports hcursor
        hextent
      rw [← finishJob_read hjob (hkind'.trans hread) (hlastiff.2 hlast)] at hserved
      have hbytes : partsBytes j'.parts = before.flatMap Part.bytes ++ s.store.bytesAt a.row lo len ++
          after.flatMap Part.bytes := by
        subst hhanded
        rw [← hgiven, handedOver, hak]
        exact partsBytes_done _
      rw [hbytes] at hserved
      subst hhanded
      exact hserved
  · have hcomplete := completeAccess_fetch hrequester hwanted hfirst hread hbuffer hnone
    have htransfer : (atCompletion b a s).transfer = s.transfer := by rw [atCompletion_read hread]
    generalize hu : (atCompletion b a s).setTransfer p _ = u at hcomplete
    have hparts : (u.transfer.get p).buffer = .fetching h start len
        (before ++ { t0 with status := .done (s.store.bytesAt a.row lo m) } :: after) := by
      subst hu
      simp
    have hjob : (u.transfer.get p).job = (s.transfer.get p).job := by subst hu; simp
    have hcursor : (u.transfer.get p).cursor = (s.transfer.get p).cursor := by subst hu; simp
    have hports : u.ports = s.ports := by subst hu; exact atCompletion_ports b a s
    have hextent : ∀ k, u.extent k = s.extent k := by subst hu; exact atCompletion_extent b a s
    have hlastiff := allFinished_done (before := before) (after := after) (t0 := t0) (s.store.bytesAt a.row lo m)
    have hbytes := partsBytes_done (before := before) (after := after) (t0 := t0) (s.store.bytesAt a.row lo m)
    rw [hcomplete] at hexec
    refine ⟨_, hexec, fun hmore => ?_, fun hlast hidle => ?_, fun j n r hlast hj hkind => ?_⟩
    · rw [finishFetch_goesOn hparts (Bool.eq_false_iff.2 (mt hlastiff.1 hmore)), settle_quiet]
      subst hu
      refine ⟨hports, ?_⟩
      simp [htransfer]
    · rw [finishFetch_valid hparts (hlastiff.2 hlast) (by rw [hjob]; exact hidle), settle_quiet, hbytes]
      subst hu
      refine ⟨hports, ?_⟩
      simp [htransfer]
    · rw [finishFetch_serves hparts (hlastiff.2 hlast) (hjob.trans hj) hkind, hbytes]
      refine readEnds_settle (finishRead_ends p j _ _) hports ?_ hextent
      simp [hcursor]

end

section
/-! SUPPORT. The bytes of the store after a completed access (R126 to R128). -/

set_option Elab.async false

namespace Sys2Proof.Machine

variable {m : Store} {g lo : Nat}

/-- A write to a row replaces the bytes it names. -/
theorem byteAt_writeAt (hwf : Memory.wf m.cells = true) (hrow : g < 4096) {bytes : List Byte}
    (hfit : lo + bytes.length ≤ 512) (x : Nat) : (m.writeAt g lo bytes).byteAt x =
      if 512 * g + lo ≤ x ∧ x < 512 * g + lo + bytes.length then bytes.getD (x - (512 * g + lo)) 0 else m.byteAt x := by
  have htake : bytes.take (rowBytes - lo) = bytes := List.take_of_length_le (by unfold rowBytes; omega)
  have hcells : m.writeAt g lo bytes = { m with cells := Memory.write m.cells (512 * g + lo) bytes } := by
    rw [Store.writeAt, if_pos (show g < storeRows from hrow), htake]
    rfl
  rw [hcells, Store.byteAt, Memory.read_write hwf]
  split
  · rename_i hin
    have hlt : x - (512 * g + lo) < bytes.length := by omega
    rw [List.getElem?_eq_getElem hlt, List.getD_eq_getElem?_getD, List.getElem?_eq_getElem hlt]
    rfl
  · rfl

/-- The four bytes of a word, most significant first. -/
theorem encode32_getD (w : Word) {i : Nat} (hi : i < 4) :
    (encode32 w.toNat).getD i 0 = w.extractLsb' (24 - 8 * i) 8 := by
  match i, hi with
  | 0, _ => simp [encode32, byteOf, BitVec.extractLsb', Nat.shiftRight_eq_div_pow]
  | 1, _ => simp [encode32, byteOf, BitVec.extractLsb', Nat.shiftRight_eq_div_pow]
  | 2, _ => simp [encode32, byteOf, BitVec.extractLsb', Nat.shiftRight_eq_div_pow]
  | 3, _ => simp [encode32, byteOf, BitVec.extractLsb', Nat.shiftRight_eq_div_pow]

/-- A word written to a row replaces its four bytes. -/
theorem byteAt_writeWord (hwf : Memory.wf m.cells = true) (hrow : g < 4096) (hfit : lo + 4 ≤ 512) (w : Word) (x : Nat) :
    (m.writeAt g lo (encode32 w.toNat)).byteAt x =
      if 512 * g + lo ≤ x ∧ x < 512 * g + lo + 4 then w.extractLsb' (24 - 8 * (x - (512 * g + lo))) 8
      else m.byteAt x := by
  have hlen : (encode32 w.toNat).length = 4 := rfl
  have hbytes := byteAt_writeAt hwf hrow (bytes := encode32 w.toNat) (hlen ▸ hfit) x
  simp only [hlen] at hbytes
  rw [hbytes]
  by_cases hin : 512 * g + lo ≤ x ∧ x < 512 * g + lo + 4
  · rw [if_pos hin, if_pos hin, encode32_getD _ (by omega)]
  · rw [if_neg hin, if_neg hin]

theorem wordOf_bytesAt (m : Store) (g lo : Nat) : wordOf (m.bytesAt g lo 4) = BitVec.ofNat 32
    ((((m.byteAt (512 * g + lo)).toNat * 256 + (m.byteAt (512 * g + lo + 1)).toNat) * 256 +
      (m.byteAt (512 * g + lo + 2)).toNat) * 256 + (m.byteAt (512 * g + lo + 3)).toNat) := by
  simp [wordOf, Store.bytesAt, decodeNat, byteAddress, rowBytes, List.range_succ, Nat.mul_comm 256, Nat.add_assoc]

variable {a : Access}

theorem complete_write {bytes : List Byte} (hkind : a.kind = .write lo bytes) :
    m.complete a = m.writeAt a.row lo bytes := by rw [Store.complete, hkind]

theorem complete_update {op : UpdateOp} {operand : Word} (hkind : a.kind = .update lo op operand) :
    m.complete a =
      m.writeAt a.row lo (encode32 (op.apply (wordOf (m.bytesAt a.row lo 4)) operand).toNat) := by
  rw [Store.complete, hkind]

theorem complete_same (hkind : (∃ lo n, a.kind = .read lo n) ∨ a.kind = .refresh) : m.complete a = m := by
  rcases hkind with ⟨lo, n, hkind⟩ | hkind <;> rw [Store.complete, hkind]

theorem writeAt_stamp (m : Store) (g lo : Nat) (bytes : List Byte) : (m.writeAt g lo bytes).stamp = m.stamp := by
  unfold Store.writeAt
  split <;> rfl

theorem complete_stamp (m : Store) (a : Access) : (m.complete a).stamp = m.stamp := by
  unfold Store.complete
  split
  · rfl
  · exact writeAt_stamp _ _ _ _
  · exact writeAt_stamp _ _ _ _
  · rfl

end Sys2Proof.Machine
end

section
/-! SUPPORT. A hand-over to one requester leaves the other ports' transfer units and accesses as they are. -/

set_option Elab.async false

namespace Sys2Proof.Machine

variable {s t u : State} {p q : PortId}

/-- Port `q` keeps its transfer unit and its accesses in flight. -/
structure UnitKept (s t : State) (q : PortId) : Prop where
  unit : t.transfer.get q = s.transfer.get q
  inFlight : inFlightGiven s t q false

theorem UnitKept.of_same (hunit : t.transfer.get q = s.transfer.get q) (hbanks : t.banks = s.banks) :
    UnitKept s t q := ⟨hunit, inFlightGiven_of_banks hbanks⟩

theorem UnitKept.refl (s : State) (q : PortId) : UnitKept s s q := .of_same rfl rfl

theorem UnitKept.trans (h : UnitKept s t q) (k : UnitKept t u q) : UnitKept s u q :=
  ⟨k.unit.trans h.unit, h.inFlight.trans k.inFlight⟩

theorem unitKept_setTransfer (s : State) (v : TransferUnit) (hq : q ≠ p) : UnitKept s (s.setTransfer p v) q :=
  .of_same (PerPort.get_set_other _ _ hq) rfl

theorem unitKept_emptyBuffer (s : State) (hq : q ≠ p) : UnitKept s (emptyBuffer p s) q :=
  ⟨emptyBuffer_other s hq, inFlightGiven_emptyBuffer_other s hq⟩

theorem unitKept_startReadAhead (s : State) (hq : q ≠ p) : UnitKept s (startReadAhead p s) q := by
  obtain ⟨buffer, h⟩ := startReadAhead_keeps p s
  rw [h]
  exact unitKept_setTransfer s _ hq

theorem unitKept_finishRead (j : Job) (bytes : List Byte) (s : State) (hq : q ≠ p) :
    UnitKept s (finishRead p j bytes s).st q := by
  have hdrop : UnitKept s (dropJob p s) q := unitKept_setTransfer s _ hq
  unfold finishRead
  cases j.detached with
  | true => exact hdrop
  | false =>
    exact ((hdrop.trans (unitKept_emptyBuffer _ hq)).trans (unitKept_setTransfer _ _ hq)).trans
      (unitKept_startReadAhead _ hq)

theorem unitKept_finishJob (s : State) (hq : q ≠ p) : UnitKept s (finishJob p s).st q := by
  have hdrop : UnitKept s (dropJob p s) q := unitKept_setTransfer s _ hq
  unfold finishJob
  split
  · exact .refl s q
  · split
    · exact .refl s q
    · split
      · exact unitKept_finishRead _ _ s hq
      · exact .refl s q
    · split
      · rw [Act.send_st, Act.quiet_st]
        split
        · exact hdrop
        · exact hdrop.trans (unitKept_setTransfer _ _ hq)
      · exact .refl s q
    · split
      · exact hdrop
      · exact .refl s q

theorem unitKept_finishFetch (s : State) (hq : q ≠ p) : UnitKept s (finishFetch p s).st q := by
  unfold finishFetch
  dsimp only
  split
  · split
    · split
      · split
        · exact (unitKept_setTransfer s _ hq).trans (unitKept_finishRead _ _ _ hq)
        · exact unitKept_setTransfer s _ hq
      · exact unitKept_setTransfer s _ hq
    · exact .refl s q
  · exact .refl s q

theorem unitKept_transferCompleted (b : BankId) (bytes : List Byte) (s : State) (hq : q ≠ p) :
    UnitKept s (transferCompleted p b bytes s).st q := by
  unfold transferCompleted
  dsimp only
  split
  · exact (unitKept_setTransfer s _ hq).trans (unitKept_finishJob _ hq)
  · exact (unitKept_setTransfer s _ hq).trans (unitKept_finishFetch _ hq)

theorem unitKept_clearCompleted (p q : PortId) (g : Nat) (s : State) : UnitKept s (clearCompleted p g s).st q := by
  unfold clearCompleted
  split
  · exact .refl s q
  · split
    · exact .refl s q
    · split
      · split
        · exact .of_same rfl rfl
        · exact .of_same rfl rfl
      · exact .refl s q

theorem unitKept_handOver {a : Access} (hrequester : a.requester ≠ .transfer q) (b : BankId) (bytes : List Byte)
    (s : State) : UnitKept s (handOver a b bytes s).st q := by
  unfold handOver
  split
  · split
    · exact .refl s q
    · exact .of_same rfl rfl
    · rename_i p hp
      exact unitKept_transferCompleted b bytes s fun hqp => hrequester (hqp ▸ hp)
    · exact unitKept_clearCompleted _ q _ s
  · exact .refl s q

end Sys2Proof.Machine
end

section
/-! PROOF. What a completed access changes of the store and of the read-ahead buffers (R126 to R130, R141, R148). -/

set_option Elab.async false

namespace Sys2Proof.Machine

variable {s : State} {a : Access} {b : BankId} {p q : PortId} {lo hi : Nat}

/-! ### The write notice -/

/-- The access writes the bytes `lo` to `hi` of its row. -/
def Access.writes (a : Access) (lo hi : Nat) : Prop :=
  (∃ bytes, a.kind = .write lo bytes ∧ hi + 1 = lo + bytes.length) ∨
    ∃ op operand, a.kind = .update lo op operand ∧ hi = lo + 3

theorem sendWriteNotice_writes (hwrites : a.writes lo hi) (s : State) :
    sendWriteNotice a s = noticeWrite a.row lo hi s := by
  rcases hwrites with ⟨bytes, hkind, hhi⟩ | ⟨op, operand, hkind, hhi⟩
  · rw [sendWriteNotice, hkind]
    show noticeWrite a.row lo (lo + bytes.length - 1) s = _
    rw [← hhi, Nat.add_sub_cancel]
  · rw [sendWriteNotice, hkind, hhi]

theorem atCompletion_unit_writes (hwrites : a.writes lo hi) (b : BankId) (s : State) (q : PortId) :
    (atCompletion b a s).transfer.get q = if bufferMeets s (s.transfer.get q) a.row lo hi = true then
      (s.transfer.get q).emptied s.firstRowOf else s.transfer.get q := by
  rw [atCompletion, sendWriteNotice_writes hwrites, noticeWrite_unit]
  rfl

theorem atCompletion_inFlight_writes (hwrites : a.writes lo hi) (b : BankId) (s : State) (q : PortId) {c : BankId}
    {x : Access} (hc : c ≠ b) (hx : (s.banks.get c).inFlight = some x) (hreq : x.requester = .transfer q) :
    ((atCompletion b a s).banks.get c).inFlight =
      some (if bufferMeets s (s.transfer.get q) a.row lo hi && (s.transfer.get q).buffer.isFetching then
        { x with wanted := false } else x) := by
  rw [atCompletion, sendWriteNotice_writes hwrites]
  refine noticeWrite_inFlight a.row lo hi q _ c x ?_ hreq
  simp only [State.setRefresh_banks, State.setBank_banks, PerBank.get_set_other _ _ hc]
  exact hx

/-! ### Buffers -/

/-- The buffer's range is `len` bytes of extent `h` from `start` on, FETCHING or VALID. -/
def ReadAhead.spans (v : ReadAhead) (h : Fin 32) (start len : Nat) : Prop :=
  (∃ parts, v = .fetching h start len parts) ∨ ∃ bytes, v = .valid h start bytes ∧ bytes.length = len

theorem spans_iff {v : ReadAhead} {h : Fin 32} {start len : Nat} :
    v.spans h start len ↔ v.handle? = some h ∧ v.range = (start, len) := by
  cases v with
  | empty => simp [ReadAhead.spans, ReadAhead.handle?]
  | fetching k x n parts => simp [ReadAhead.spans, ReadAhead.handle?, ReadAhead.range]
  | valid k x bytes =>
    simp only [ReadAhead.spans, ReadAhead.handle?, ReadAhead.range, Option.some.injEq, Prod.mk.injEq]
    constructor
    · rintro (⟨parts, hparts⟩ | ⟨bytes', hvalid, hlen⟩)
      · cases hparts
      · cases hvalid
        exact ⟨rfl, rfl, hlen⟩
    · rintro ⟨rfl, rfl, hlen⟩
      exact .inr ⟨bytes, rfl, hlen⟩

theorem spans_of_sameWork {u v : TransferUnit} (h : sameWork u v) {k : Fin 32} {start len : Nat}
    (hspans : u.buffer.spans k start len) : v.buffer.spans k start len := by
  obtain ⟨-, hhandle, hrange, -, -⟩ := h
  rw [spans_iff] at hspans ⊢
  exact ⟨hhandle.trans hspans.1, hrange.trans hspans.2⟩

theorem empty_of_sameWork {u v : TransferUnit} (h : sameWork u v) (hempty : u.buffer = .empty) : v.buffer = .empty := by
  obtain ⟨-, hhandle, -, -, -⟩ := h
  rw [hempty] at hhandle
  cases hbuffer : v.buffer with
  | empty => rfl
  | fetching => rw [hbuffer] at hhandle; cases hhandle
  | valid => rw [hbuffer] at hhandle; cases hhandle

/-- The bytes written and the buffer share a byte of the extent. -/
def sharesByte (e : Extent) (row lo hi start len : Nat) : Prop :=
  ∃ x, start ≤ x ∧ x < start + len ∧ 512 * (row - e.firstRow) + lo ≤ x ∧ x ≤ 512 * (row - e.firstRow) + hi

theorem bufferMeets_iff {u : TransferUnit} {h : Fin 32} {e : Extent} {row start len : Nat} (he : s.extent h = some e)
    (hrow : e.firstRow ≤ row) (hlohi : lo ≤ hi) (hlen : 1 ≤ len) (hspans : u.buffer.spans h start len) :
    bufferMeets s u row lo hi = true ↔ sharesByte e row lo hi start len := by
  obtain ⟨hhandle, hrange⟩ := spans_iff.1 hspans
  simp only [bufferMeets, hhandle, he, hrange, rowBytes, Bool.and_eq_true, decide_eq_true_eq, sharesByte]
  constructor
  · rintro ⟨⟨-, hleft⟩, hright⟩
    exact ⟨max start (512 * (row - e.firstRow) + lo), by omega, by omega, by omega, by omega⟩
  · rintro ⟨x, h1, h2, h3, h4⟩
    exact ⟨⟨hrow, by omega⟩, by omega⟩

/-- A hand-over fills no emptied buffer, but at the end of a Read of that port. -/
theorem handOver_buffer_empty (bytes : List Byte) (hempty : (s.transfer.get q).buffer = .empty)
    (hjob : ∀ j, (s.transfer.get q).job = some j → a.requester = .transfer q → j.isRead = false) :
    ((handOver a b bytes s).st.transfer.get q).buffer = .empty := by
  by_cases hrequester : a.requester = .transfer q
  · rw [handOver]
    cases hwanted : a.wanted with
    | false => exact hempty
    | true =>
      simp only [if_true, hrequester, transferCompleted]
      cases hj : (s.transfer.get q).job with
      | none =>
        simp [jobParts, finishFetch, State.setTransfer, hempty, ReadAhead.completeAt]
      | some j =>
        have hread := hjob j hj hrequester
        split
        · rw [Option.map_some, finishJob]
          simp only [State.setTransfer_transfer, PerPort.get_set_same]
          cases hkind : j.kind with
          | read n => simp [Job.isRead, hkind] at hread
          | readBuffered n => simp [Job.isRead, hkind] at hread
          | write n =>
            simp only
            split
            · rw [Act.send_st, Act.quiet_st]
              split <;> simp [advanceCursor, dropJob, State.setTransfer, hempty]
            · simp [State.setTransfer, hempty]
          | update =>
            simp only
            split
            · simp [dropJob, State.setTransfer, hempty]
            · simp [State.setTransfer, hempty]
        · simp [finishFetch, State.setTransfer, hempty, ReadAhead.completeAt]
  · rw [(unitKept_handOver hrequester b bytes s).unit]
    exact hempty

/-! ### The clauses -/

/-- The transfer unit of a port that the completed access is not for. -/
theorem settled_unit (hrequester : a.requester ≠ .transfer q) (b : BankId) (s : State) :
    (completeAccess b a s).settle.transfer.get q = (atCompletion b a s).transfer.get q := by
  rw [settle_transfer, completeAccess_eq]
  exact (unitKept_handOver hrequester b _ _).unit

/-- Another bank's access in flight of a port that the completed access is not for. -/
theorem settled_inFlight (hrequester : a.requester ≠ .transfer q) (b : BankId) (s : State) {c : BankId} {x y : Access}
    (hx : ((atCompletion b a s).banks.get c).inFlight = some x) (hreq : x.requester = .transfer q) (hxy : x = y) :
    ((completeAccess b a s).settleAndArbitrate.banks.get c).inFlight = some y := by
  refine settleAndArbitrate_inFlight _ ?_
  rw [completeAccess_eq, ← hxy]
  exact (unitKept_handOver hrequester b _ _).inFlight c x hx hreq

/-- An unwanted read leaves the bank and is reported to refresh. -/
theorem unwanted_read {n : Nat} (hkind : a.kind = .read lo n) (hunwanted : a.wanted = false) :
    (completeAccess b a s).settle =
      { s with
        banks := s.banks.set b { s.banks.get b with inFlight := none }
        refresh := (completeAccess b a s).settle.refresh, arrivals := s.arrivals.tail } := by
  have hcomplete : completeAccess b a s = .quiet (atCompletion b a s) := by
    rw [completeAccess_eq, handOver, hunwanted]
    rfl
  rw [hcomplete, settle_quiet, atCompletion_read hkind]

variable {h : Fin 32} {e : Extent} {start len : Nat}

/-- A buffer that shares a byte with those written is emptied, and stays so. -/
theorem shared_buffer_empty (hwrites : a.writes lo hi) (hmeets : bufferMeets s (s.transfer.get q) a.row lo hi = true)
    (hjob : ∀ j, (s.transfer.get q).job = some j → a.requester = .transfer q → j.isRead = false) :
    ((completeAccess b a s).settleAndArbitrate.transfer.get q).buffer = .empty := by
  have hunit := atCompletion_unit_writes hwrites b s q
  rw [if_pos hmeets] at hunit
  refine empty_of_sameWork (settleAndArbitrate_unit _ q) ?_
  rw [completeAccess_eq]
  refine handOver_buffer_empty _ (by rw [hunit]; rfl) fun j hj hrequester => ?_
  rw [hunit, TransferUnit.emptied] at hj
  obtain ⟨k, hk, rfl⟩ := Option.map_eq_some_iff.1 hj
  rw [(standAlone_reads k _).1]
  exact hjob k hk hrequester

/-- What the notice leaves of a transfer unit whose buffer shares a byte with those written. -/
theorem shared_unit (hwrites : a.writes lo hi) (hmeets : bufferMeets s (s.transfer.get q) a.row lo hi = true)
    (hrequester : a.requester ≠ .transfer q) :
    let u := (completeAccess b a s).settle
    (u.transfer.get q).cursor = (s.transfer.get q).cursor ∧
    ((s.transfer.get q).job = none → (u.transfer.get q).job = none) ∧
    ∀ j, (s.transfer.get q).job = some j →
      ((∀ n, j.kind ≠ .readBuffered n) → (u.transfer.get q).job = some j) ∧
      ∀ n f, j.kind = .readBuffered n → s.extent j.handle = some f → (u.transfer.get q).job =
        some { j with kind := .read n, parts := readParts f.firstRow j.offset n } := by
  intro u
  have hunit : u.transfer.get q = (s.transfer.get q).emptied s.firstRowOf := by
    rw [settled_unit hrequester, atCompletion_unit_writes hwrites, if_pos hmeets]
  rw [hunit, TransferUnit.emptied]
  refine ⟨rfl, fun hnone => by rw [hnone]; rfl, fun j hj => ⟨fun hkind => ?_, fun n f hkind hf => ?_⟩⟩
  · rw [hj, Option.map_some, standAlone_of_kind hkind]
  · rw [hj, Option.map_some, standAlone_buffered hkind, firstRowOf_of_record hf]

end Sys2Proof.Machine
end

section
set_option Elab.async false

open Sys2Proof Sys2Proof.Machine

/-- Settles O50: the bytes written, the write notice to each transfer unit, and the unwanted read. -/
theorem completionChangesOnlyItsBytes : Obligations.CompletionChangesOnlyItsBytes := by
  intro b s a hready hinv hflight hrow
  have hwf : Memory.wf s.store.cells = true := hinv
  obtain ⟨ports, extents, banks, transfer, fetch, hframe⟩ := completion_frame b a s
  have hstore : (completeAccess b a s).settleAndArbitrate.store = s.store.complete a := by rw [hframe]
  refine ⟨_, (completeAccess b a s).settle, exec_accessCompletion hready hflight, rfl,
    fun lo bytes hkind hfit x => ?_, fun lo op operand hkind hfit x => ?_, fun hkind => ?_,
    fun lo hi hlohi hwrites q h e start len he hfirst => ?_, fun hread hunwanted => ?_, ?_,
    by rw [hframe], by rw [hframe], by rw [hframe], by rw [hframe], by rw [hframe]⟩
  · exact (congrArg (fun m => Store.byteAt m x) (hstore.trans (complete_write hkind))).trans
      (byteAt_writeAt hwf hrow hfit x)
  · intro word
    refine (congrArg (fun m => Store.byteAt m x) (hstore.trans (complete_update hkind))).trans ?_
    rw [wordOf_bytesAt]
    exact byteAt_writeWord hwf hrow hfit _ x
  · exact hstore.trans (complete_same hkind)
  · intro holds shares hholds hlen
    have hmeets : bufferMeets s (s.transfer.get q) a.row lo hi = true ↔ shares :=
      bufferMeets_iff he hfirst hlohi hlen hholds
    have hwrites' : a.writes lo hi := hwrites
    refine ⟨fun hshares hjob => shared_buffer_empty hwrites' (hmeets.2 hshares) hjob,
      fun hnot hrequester => spans_of_sameWork (settleAndArbitrate_unit _ q) ?_,
      fun hrequester => ⟨fun hnot => ?_, fun hshares => shared_unit hwrites' (hmeets.2 hshares) hrequester,
        fun c x hc hx hreq => ⟨fun hshares hfetching => ?_, fun hnot => ?_⟩⟩⟩
    · have hunit := settled_unit hrequester b s
      rw [settle_transfer, atCompletion_unit_writes hwrites', if_neg (mt hmeets.1 hnot)] at hunit
      rw [hunit]
      exact hholds
    · rw [settled_unit hrequester, atCompletion_unit_writes hwrites', if_neg (mt hmeets.1 hnot)]
    · have hflying := atCompletion_inFlight_writes hwrites' b s q hc hx hreq
      rw [hmeets.2 hshares, hfetching] at hflying
      exact settled_inFlight hrequester b s hflying hreq rfl
    · have hflying := atCompletion_inFlight_writes hwrites' b s q hc hx hreq
      have hkept : (bufferMeets s (s.transfer.get q) a.row lo hi && (s.transfer.get q).buffer.isFetching) = false := by
        rcases hnot with hnot | hidle
        · rw [Bool.eq_false_iff.2 (mt hmeets.1 hnot), Bool.false_and]
        · rw [hidle, Bool.and_false]
      rw [hkept] at hflying
      exact settled_inFlight hrequester b s hflying hreq rfl
  · obtain ⟨lo, n, hkind⟩ := hread
    exact unwanted_read hkind hunwanted
  · rw [hstore, complete_stamp]

end

section
/-! SUPPORT. What waits at an idle bank, and what a grant decision makes of it (R129 to R132). -/

set_option Elab.async false

namespace Sys2Proof.Machine

variable {s : State} {b : BankId} {p : PortId} {x : Part} {before after : List Part} {l : List PortId}

/-! ### What waits -/

/-- The row access waits for a grant of the bank. -/
def Part.Waits (b : BankId) (x : Part) : Prop := x.status = .waiting ∧ bankOfRow x.row = b

theorem waitsAt_iff (b : BankId) (x : Part) : x.waitsAt b = true ↔ x.Waits b := by
  simp [Part.waitsAt, Part.Waits]

theorem waitsAt_eq_false (b : BankId) (x : Part) : x.waitsAt b = false ↔ ¬x.Waits b := by
  rw [← waitsAt_iff, Bool.not_eq_true]

theorem find_waits (hx : x.Waits b) (hbefore : ∀ y ∈ before, ¬y.Waits b) :
    (before ++ x :: after).find? (Part.waitsAt b) = some x :=
  List.find?_eq_some_iff_append.2 ⟨(waitsAt_iff b x).2 hx, before, after, rfl, fun y hy => by
    rw [(waitsAt_eq_false b y).2 (hbefore y hy), Bool.not_false]⟩

theorem find_waits_none {m : List Part} : m.find? (Part.waitsAt b) = none ↔ ∀ y ∈ m, ¬y.Waits b := by
  simp only [List.find?_eq_none, waitsAt_iff]

theorem scanWaiting_eq_none : scanWaiting s b = none ↔ ∀ f ∈ s.scan.fetch, ¬f.part.Waits b := by
  simp only [scanWaiting, Option.map_eq_none_iff, List.find?_eq_none, waitsAt_iff]

theorem scanWaiting_eq_some {f : FetchPart} {first last : List FetchPart} (hfetch : s.scan.fetch = first ++ f :: last)
    (hf : f.part.Waits b) (hfirst : ∀ y ∈ first, ¬y.part.Waits b) : scanWaiting s b = some f.part := by
  have hfind : s.scan.fetch.find? (fun f => f.part.waitsAt b) = some f :=
    List.find?_eq_some_iff_append.2 ⟨(waitsAt_iff b f.part).2 hf, first, last, hfetch, fun y hy => by
      rw [(waitsAt_eq_false b y.part).2 (hfirst y hy), Bool.not_false]⟩
  rw [scanWaiting, hfind, Option.map_some]

/-- A transfer unit has an access waiting at the bank, of the transfer's own or of the fetch's. -/
def TransferWaits (s : State) (b : BankId) (p : PortId) : Prop :=
  ∃ x ∈ jobParts (s.transfer.get p).job ++ (s.transfer.get p).buffer.parts, x.Waits b

theorem transferWaiting_eq_none : transferWaiting s p b = none ↔ ¬TransferWaits s b p := by
  simp only [transferWaiting, find_waits_none, TransferWaits, not_exists, not_and]

theorem transferWaiting_own {j : Job} (hj : (s.transfer.get p).job = some j) (hparts : j.parts = before ++ x :: after)
    (hx : x.Waits b) (hbefore : ∀ y ∈ before, ¬y.Waits b) : transferWaiting s p b = some x := by
  rw [transferWaiting, hj, jobParts, hparts, List.find?_append, find_waits hx hbefore, Option.some_or]

theorem transferWaiting_ahead {h : Fin 32} {start len : Nat}
    (hown : ∀ y ∈ jobParts (s.transfer.get p).job, ¬y.Waits b)
    (hbuffer : (s.transfer.get p).buffer = .fetching h start len (before ++ x :: after))
    (hx : x.Waits b) (hbefore : ∀ y ∈ before, ¬y.Waits b) : transferWaiting s p b = some x := by
  rw [transferWaiting, List.find?_append, find_waits_none.2 hown, hbuffer, ReadAhead.parts, find_waits hx hbefore,
    Option.none_or]

theorem mem_allBanks (c : BankId) : c ∈ allBanks := by cases c <;> decide

theorem inFlightBy_eq_false {r : Requester} :
    inFlightBy s r = false ↔ ∀ c a, (s.banks.get c).inFlight = some a → a.requester ≠ r := by
  rw [← Bool.not_eq_true, inFlightBy, List.any_eq_true, not_exists]
  refine ⟨fun h c a hc hr => h c ⟨mem_allBanks c, ?_⟩, fun h c hc => ?_⟩
  · rw [hc]
    exact decide_eq_true hr
  · obtain ⟨-, hc⟩ := hc
    split at hc
    next a ha => exact h c a ha (of_decide_eq_true hc)
    next => cases hc

/-- The row at the clear progress of the extent at the head of the port's clear list. -/
def ClearRow (s : State) (p : PortId) (g : Nat) : Prop :=
  ∃ h rest e, s.extents.clearLists.get p = h :: rest ∧ s.extent h = some e ∧ e.progress < e.rows ∧
    g = e.firstRow + e.progress

/-- A clear engine with no write in flight has a row of the bank to clear. -/
def ClearWaits (s : State) (b : BankId) (p : PortId) (g : Nat) : Prop :=
  (∀ c a, (s.banks.get c).inFlight = some a → a.requester ≠ .clear p) ∧ ClearRow s p g ∧ bankOfRow g = b

theorem clearWaiting_eq_some {g : Nat} :
    clearWaiting s p = some g ↔
      (∀ c a, (s.banks.get c).inFlight = some a → a.requester ≠ .clear p) ∧ ClearRow s p g := by
  rw [← inFlightBy_eq_false, clearWaiting, ClearRow]
  split
  next hbusy => simp [hbusy]
  next hidle =>
    simp only [Bool.not_eq_true] at hidle
    cases hlist : s.extents.clearLists.get p with
    | nil => simp
    | cons h rest =>
      cases he : s.extent h with
      | none => simp [hidle, he]
      | some e =>
        by_cases hprogress : e.progress < e.rows
        · simp [hidle, he, hprogress, eq_comm]
        · simp [hidle, he, hprogress]

theorem clearWaitingAt_eq_some {g : Nat} : clearWaitingAt s p b = some g ↔ ClearWaits s b p g := by
  rw [ClearWaits, ← and_assoc, ← clearWaiting_eq_some, clearWaitingAt]
  cases hw : clearWaiting s p with
  | none => simp
  | some r =>
    by_cases hr : bankOfRow r = b
    · simp only [hr, if_true, Option.some.injEq]
      exact ⟨fun h => ⟨h, h ▸ hr⟩, fun h => h.1⟩
    · simp only [hr, if_false, reduceCtorEq, Option.some.injEq, false_iff]
      rintro ⟨rfl, h⟩
      exact hr h

theorem clearWaitingAt_eq_none : clearWaitingAt s p b = none ↔ ∀ g, ¬ClearWaits s b p g := by
  simp only [Option.eq_none_iff_forall_ne_some, ne_eq, clearWaitingAt_eq_some]

/-- The port has an access waiting at the bank, of its transfer unit or of its clear engine. -/
def PortWaits (s : State) (b : BankId) (p : PortId) : Prop := TransferWaits s b p ∨ ∃ g, ClearWaits s b p g

/-! ### The round-robin -/

theorem grantPorts_skip {q : PortId} (hq : ¬PortWaits s b q) : grantPorts s b (q :: l) = grantPorts s b l := by
  have hnone := not_or.1 hq
  simp only [grantPorts, transferWaiting_eq_none.2 hnone.1, clearWaitingAt_eq_none.2 (not_exists.1 hnone.2)]

/-- The ports before the first that waits are passed over. -/
theorem grantPorts_passes (hp : p ∈ l) (hbefore : ∀ q ∈ l.takeWhile (fun q => decide (q ≠ p)), ¬PortWaits s b q) :
    ∃ rest, grantPorts s b l = grantPorts s b (p :: rest) := by
  induction l with
  | nil => cases hp
  | cons q rest ih =>
    by_cases hq : q = p
    · exact ⟨rest, by rw [hq]⟩
    · rw [List.takeWhile_cons_of_pos (by simpa using hq)] at hbefore
      obtain ⟨tail, htail⟩ := ih ((List.mem_cons.1 hp).resolve_left (Ne.symm hq))
        fun r hr => hbefore r (List.mem_cons_of_mem q hr)
      exact ⟨tail, (grantPorts_skip (hbefore q List.mem_cons_self)).trans htail⟩

theorem grantPorts_none (h : ∀ q ∈ l, ¬PortWaits s b q) : grantPorts s b l = s := by
  induction l with
  | nil => rfl
  | cons q rest ih =>
    exact (grantPorts_skip (h q List.mem_cons_self)).trans (ih fun r hr => h r (List.mem_cons_of_mem q hr))

theorem grantPorts_transfer {t : Part} (ht : transferWaiting s p b = some t)
    (hturn : (∀ g, ¬ClearWaits s b p g) ∨ (s.banks.get b).marks.get p = .clear) :
    grantPorts s b (p :: l) = grantTransfer s b p t := by
  cases hclear : clearWaitingAt s p b with
  | none => simp only [grantPorts, ht, hclear]
  | some g =>
    have hmark := hturn.resolve_left fun h => h g (clearWaitingAt_eq_some.1 hclear)
    simp only [grantPorts, ht, hclear, hmark]

theorem grantPorts_clear {g : Nat} (hg : ClearWaits s b p g)
    (hturn : ¬TransferWaits s b p ∨ (s.banks.get b).marks.get p = .transfer) :
    grantPorts s b (p :: l) = grantClear s b p g := by
  cases ht : transferWaiting s p b with
  | none => simp only [grantPorts, ht, clearWaitingAt_eq_some.2 hg]
  | some t =>
    have hmark := hturn.resolve_left fun h => by simp [transferWaiting_eq_none.2 h] at ht
    simp only [grantPorts, ht, clearWaitingAt_eq_some.2 hg, hmark]

theorem mem_turnOrder (p q : PortId) : p ∈ turnOrder q := by cases p <;> cases q <;> decide

/-! ### What is granted -/

/-- The bank with the access in flight. -/
def State.granting (s : State) (b : BankId) (q : Requester) (row : Nat) (kind : AccessKind) (v : Bank) : State :=
  s.setBank b { v with inFlight := some { requester := q, row, kind, wanted := true } }

/-- The bank whose pointer names the port, and whose mark of the port the kind. -/
def Bank.turned (k : Bank) (p : PortId) (v : TurnKind) : Bank := { k with pointer := p, marks := k.marks.set p v }

theorem PerBank.set_set {α : Type} (t : PerBank α) (b : BankId) (v w : α) : (t.set b v).set b w = t.set b w := by
  cases b <;> rfl

theorem takeTurn_begin (s : State) (b : BankId) (p : PortId) (k : TurnKind) (a : Access) :
    (s.takeTurn b p k).begin b a = s.setBank b { (s.banks.get b).turned p k with inFlight := some a } := by
  simp only [State.begin, State.takeTurn, State.setBank, PerBank.get_set_same, PerBank.set_set, Bank.turned]

theorem grantClear_eq (s : State) (b : BankId) (p : PortId) (g : Nat) :
    grantClear s b p g =
      s.granting b (.clear p) g (.write 0 (List.replicate 512 0)) ((s.banks.get b).turned p .clear) :=
  takeTurn_begin s b p .clear _

theorem grantTransfer_eq (s : State) (b : BankId) (p : PortId) (t : Part) :
    grantTransfer s b p t =
      (s.granting b (.transfer p) t.row t.kind ((s.banks.get b).turned p .transfer)).setTransfer p
        ((s.transfer.get p).grantAt b) :=
  takeTurn_begin _ b p .transfer _

theorem grantAt_own {u : TransferUnit} {j : Job} (hj : u.job = some j) (hparts : j.parts = before ++ x :: after)
    (hx : x.Waits b) (hbefore : ∀ y ∈ before, ¬y.Waits b) :
    u.grantAt b = { u with job := some { j with parts := before ++ { x with status := .granted } :: after } } := by
  have hany : (jobParts u.job).any (Part.waitsAt b) = true := by
    rw [hj, jobParts, hparts, List.any_eq_true]
    exact ⟨x, by simp, (waitsAt_iff b x).2 hx⟩
  rw [TransferUnit.grantAt, if_pos hany, hj, Option.map_some, hparts,
    markGranted_at ((waitsAt_iff b x).2 hx) fun y hy => (waitsAt_eq_false b y).2 (hbefore y hy)]

theorem grantAt_ahead {u : TransferUnit} {h : Fin 32} {start len : Nat} (hown : ∀ y ∈ jobParts u.job, ¬y.Waits b)
    (hbuffer : u.buffer = .fetching h start len (before ++ x :: after))
    (hx : x.Waits b) (hbefore : ∀ y ∈ before, ¬y.Waits b) :
    u.grantAt b =
      { u with buffer := .fetching h start len (before ++ { x with status := .granted } :: after) } := by
  have hany : ¬(jobParts u.job).any (Part.waitsAt b) = true := by
    rw [List.any_eq_true]
    rintro ⟨y, hy, hwaits⟩
    exact hown y hy ((waitsAt_iff b y).1 hwaits)
  rw [TransferUnit.grantAt, if_neg hany, hbuffer, ReadAhead.grantAt,
    markGranted_at ((waitsAt_iff b x).2 hx) fun y hy => (waitsAt_eq_false b y).2 (hbefore y hy)]

theorem grantScan_eq {f : FetchPart} {first last : List FetchPart} (hfetch : s.scan.fetch = first ++ f :: last)
    (hf : f.part.Waits b) (hfirst : ∀ y ∈ first, ¬y.part.Waits b) :
    grantScan s b f.part = { s.granting b .scan f.part.row f.part.kind (s.banks.get b) with
      scan := { s.scan with fetch := first ++ { f with part := { f.part with status := .granted } } :: last } } := by
  rw [grantScan, hfetch,
    markFetchGranted_at ((waitsAt_iff b f.part).2 hf) fun y hy => (waitsAt_eq_false b y.part).2 (hfirst y hy)]
  rfl

/-! ### The decision -/

theorem decideGrant_busy {a : Access} (h : (s.banks.get b).inFlight = some a) : decideGrant s b = s := by
  simp only [decideGrant, h]

section
variable (hidle : (s.banks.get b).inFlight = none)
include hidle

theorem decideGrant_refresh {r : Fin 1024} (hr : (s.refresh.get b).request = some r)
    (hclass : 4 ≤ (s.refresh.get b).owed.length ∨ ∀ f ∈ s.scan.fetch, ¬f.part.Waits b) :
    decideGrant s b = grantRefresh s b r := by
  cases hscan : scanWaiting s b with
  | none => simp only [decideGrant, hidle, hr, hscan]
  | some t =>
    have hurgent := hclass.resolve_right fun h => by simp [scanWaiting_eq_none.2 h] at hscan
    simp only [decideGrant, hidle, hr, hscan, urgentLength, hurgent, if_true]

theorem decideGrant_scan {t : Part} (hscan : scanWaiting s b = some t)
    (hclass : (s.refresh.get b).request = none ∨ (s.refresh.get b).owed.length < 4) :
    decideGrant s b = grantScan s b t := by
  cases hr : (s.refresh.get b).request with
  | none => simp only [decideGrant, hidle, hr, hscan]
  | some r =>
    have hfew := hclass.resolve_left (by simp [hr])
    simp only [decideGrant, hidle, hr, hscan, urgentLength, Nat.not_le.2 hfew, if_false]

theorem decideGrant_ports (hr : (s.refresh.get b).request = none) (hscan : ∀ f ∈ s.scan.fetch, ¬f.part.Waits b) :
    decideGrant s b = grantPorts s b (turnOrder (s.banks.get b).pointer) := by
  simp only [decideGrant, hidle, hr, scanWaiting_eq_none.2 hscan]

/-- Of the ports the first in turn that has an access waiting decides. -/
theorem decideGrant_firstPort (hr : (s.refresh.get b).request = none) (hscan : ∀ f ∈ s.scan.fetch, ¬f.part.Waits b)
    (hfirst : ∀ q ∈ (turnOrder (s.banks.get b).pointer).takeWhile (fun q => decide (q ≠ p)), ¬PortWaits s b q) :
    ∃ rest, decideGrant s b = grantPorts s b (p :: rest) := by
  obtain ⟨rest, hrest⟩ := grantPorts_passes (mem_turnOrder p _) hfirst
  exact ⟨rest, (decideGrant_ports hidle hr hscan).trans hrest⟩

end

end Sys2Proof.Machine
end

section
set_option Elab.async false

open Sys2Proof Sys2Proof.Machine

/-- Settles O47: refresh and the scan engine by the class they fall in, the ports by the first in turn that waits,
and each grant by the first access that waits. -/
theorem grantsFollowTheClasses : Obligations.GrantsFollowTheClasses := by
  unfold Obligations.GrantsFollowTheClasses
  refine ⟨fun _ => rfl, fun s b => ⟨fun a => decideGrant_busy, fun hidle => ?_⟩⟩
  intro bank k granted turned here own ahead transfers clears waits noFetch
  have hclears : ∀ p g, clears p g ↔ ClearWaits s b p g := fun p g => by
    refine ⟨fun ⟨hbanks, h, rest, e, hlist, he, hprogress, hg, hb⟩ =>
      ⟨hbanks, ⟨h, rest, e, hlist, he, hprogress, hg⟩, hb⟩,
      fun ⟨hbanks, ⟨h, rest, e, hlist, he, hprogress, hg⟩, hb⟩ => ⟨hbanks, h, rest, e, hlist, he, hprogress, hg, hb⟩⟩
  have hclear : ∀ p, (∀ g, ¬clears p g) → ∀ g, ¬ClearWaits s b p g := fun p h g hg => h g ((hclears p g).2 hg)
  have hwaits : ∀ p, ¬waits p → ¬PortWaits s b p := fun p h hp =>
    h (hp.imp id fun ⟨g, hg⟩ => ⟨g, (hclears p g).2 hg⟩)
  refine ⟨fun r hr hclass => decideGrant_refresh hidle hr hclass,
    fun before f after hclass hfetch hf hbefore =>
      (decideGrant_scan hidle (scanWaiting_eq_some hfetch hf hbefore) hclass).trans (grantScan_eq hfetch hf hbefore),
    fun hr hfetch => ⟨fun p ⟨_, hfirst⟩ => ?_, fun hnone =>
      (decideGrant_ports hidle hr hfetch).trans (grantPorts_none fun q _ => hwaits q (hnone q))⟩⟩
  obtain ⟨rest, hdecide⟩ := decideGrant_firstPort hidle hr hfetch fun q hq => hwaits q (hfirst q hq)
  refine ⟨fun _ hturn => ⟨fun j before x after hj hparts hx hbefore => ?_,
    fun h start len before x after hown hbuffer hx hbefore => ?_⟩, fun g hg hturn => ?_⟩
  · rw [hdecide, grantPorts_transfer (transferWaiting_own hj hparts hx hbefore) (hturn.imp_left (hclear p)),
      grantTransfer_eq, grantAt_own hj hparts hx hbefore]
    rfl
  · rw [hdecide, grantPorts_transfer (transferWaiting_ahead hown hbuffer hx hbefore) (hturn.imp_left (hclear p)),
      grantTransfer_eq, grantAt_ahead hown hbuffer hx hbefore]
    rfl
  · rw [hdecide, grantPorts_clear ((hclears p g).1 hg) hturn]
    exact grantClear_eq s b p g

end

section
/-! SUPPORT. What a notice of damage makes of the transfer units and of their accesses (R112, R146, R148). -/

set_option Elab.async false

namespace Sys2Proof.Machine

variable {s : State} {h : Fin 32} {p q : PortId} {l : List PortId}

/-- A transfer unit that is told of damage of an extent. -/
def TransferUnit.damagedIn (u : TransferUnit) (h : Fin 32) (row : Fin 32 → Nat) : TransferUnit :=
  { cursor := u.cursor
    buffer := if u.buffer.handle? = some h then .empty else u.buffer
    job := u.job.map fun j =>
      let k := if u.buffer.handle? = some h then j.standAlone (row j.handle) else j
      if k.isRead && decide (k.handle = h) then { k with damage := true } else k }

theorem noticeDamagedAt_banks (h : Fin 32) (p : PortId) (s : State) :
    (noticeDamagedAt h p s).banks =
      if fetchesFrom s p h then (s.giveUp (.transfer p)).banks else s.banks := by
  unfold noticeDamagedAt fetchesFrom
  by_cases hh : (s.transfer.get p).buffer.handle? = some h
  · simp only [hh, if_true, decide_true, Bool.and_true]
    show (emptyBuffer p s).banks = _
    rw [emptyBuffer_banks_eq]
    split <;> rfl
  · simp only [hh, if_false, decide_false, Bool.and_false, Bool.false_eq_true]
    rfl

theorem noticeDamagedAt_inFlight {b : BankId} {a : Access} (ha : (s.banks.get b).inFlight = some a) :
    ((noticeDamagedAt h p s).banks.get b).inFlight = some
      { a with wanted := a.wanted && !(decide (a.requester = .transfer p) && fetchesFrom s p h) } := by
  rw [noticeDamagedAt_banks]
  cases fetchesFrom s p h with
  | false => simpa using ha
  | true =>
    rw [if_pos rfl, giveUp_inFlight s _ b ha]
    by_cases hr : a.requester = .transfer p <;> simp [hr]

theorem noticeDamagedAt_extents (h : Fin 32) (p : PortId) (s : State) :
    (noticeDamagedAt h p s).extents = s.extents := by
  unfold noticeDamagedAt
  dsimp only
  split
  · obtain ⟨_, _, hs, -⟩ := emptyBuffer_frame p s
    rw [hs]
    rfl
  · rfl

theorem fetchesFrom_noticeDamagedAt (s : State) (hq : q ≠ p) :
    fetchesFrom (noticeDamagedAt h p s) q h = fetchesFrom s q h := by
  rw [fetchesFrom, noticeDamagedAt_other s hq, fetchesFrom]

theorem noticeDamagedTo_unit (l : List PortId) (hl : l.Nodup) (s : State) :
    (l.foldl (fun s p => noticeDamagedAt h p s) s).transfer.get q =
      if q ∈ l then (s.transfer.get q).damagedIn h s.firstRowOf else s.transfer.get q := by
  induction l generalizing s with
  | nil => rfl
  | cons p rest ih =>
    obtain ⟨hp, hrest⟩ := List.nodup_cons.1 hl
    rw [List.foldl_cons, ih hrest, firstRowOf_of_extents (noticeDamagedAt_extents h p s)]
    by_cases hq : q = p
    · subst hq
      rw [if_neg hp, if_pos List.mem_cons_self]
      exact noticeDamagedAt_unit h q s
    · rw [noticeDamagedAt_other s hq]
      simp only [List.mem_cons, hq, false_or]

theorem any_congr_mem {α : Type} {l : List α} {f g : α → Bool} (h : ∀ x ∈ l, f x = g x) : l.any f = l.any g := by
  rw [Bool.eq_iff_iff, List.any_eq_true, List.any_eq_true]
  exact exists_congr fun x => and_congr_right fun hx => by rw [h x hx]

theorem noticeDamagedTo_inFlight {b : BankId} (l : List PortId) (hl : l.Nodup) {s : State} {a : Access}
    (ha : (s.banks.get b).inFlight = some a) :
    ((l.foldl (fun s p => noticeDamagedAt h p s) s).banks.get b).inFlight = some
      { a with wanted := a.wanted && !l.any fun p => decide (a.requester = .transfer p) && fetchesFrom s p h } := by
  induction l generalizing s a with
  | nil => simpa using ha
  | cons p rest ih =>
    obtain ⟨hp, hrest⟩ := List.nodup_cons.1 hl
    have hsame : (rest.any fun q => decide (a.requester = .transfer q) && fetchesFrom (noticeDamagedAt h p s) q h) =
        rest.any fun q => decide (a.requester = .transfer q) && fetchesFrom s q h :=
      any_congr_mem fun q hq => by rw [fetchesFrom_noticeDamagedAt s (ne_of_mem_of_not_mem hq hp)]
    rw [List.foldl_cons, ih hrest (noticeDamagedAt_inFlight ha)]
    simp only [hsame, List.any_cons, Bool.not_or, Bool.and_assoc]

theorem nodup_allPorts : allPorts.Nodup := by decide

theorem noticeDamaged_unit (h : Fin 32) (q : PortId) (s : State) :
    (noticeDamaged h s).transfer.get q = (s.transfer.get q).damagedIn h s.firstRowOf :=
  (noticeDamagedTo_unit allPorts nodup_allPorts s).trans (if_pos (mem_allPorts q))

theorem noticeDamaged_inFlight {b : BankId} {a : Access} (ha : (s.banks.get b).inFlight = some a) :
    ((noticeDamaged h s).banks.get b).inFlight = some
      { a with wanted := a.wanted &&
          !allPorts.any fun p => decide (a.requester = .transfer p) && fetchesFrom s p h } :=
  noticeDamagedTo_inFlight allPorts nodup_allPorts ha

variable {u : TransferUnit} {row : Fin 32 → Nat} {j : Job}

theorem damagedIn_kept (hj : u.job = some j)
    (hkept : j.isRead = false ∨ j.handle ≠ h ∧ u.buffer.handle? ≠ some h) : (u.damagedIn h row).job = some j := by
  rw [TransferUnit.damagedIn, hj, Option.map_some]
  rcases hkept with hread | ⟨hhandle, hbuffer⟩
  · simp [standAlone_of_not_isRead hread, hread]
  · simp [hhandle, hbuffer]

theorem damagedIn_read {n : Nat} (hj : u.job = some j) (hkind : j.kind = .read n) (hhandle : j.handle = h) :
    (u.damagedIn h row).job = some { j with damage := true } := by
  have hread : j.isRead = true := by rw [Job.isRead, hkind]
  rw [TransferUnit.damagedIn, hj, Option.map_some]
  simp [standAlone_of_kind (j := j) (by simp [hkind]), hread, hhandle]

theorem damagedIn_buffered {n : Nat} (hj : u.job = some j) (hkind : j.kind = .readBuffered n)
    (hhandle : j.handle = h) (hbuffer : u.buffer.handle? = some h) :
    (u.damagedIn h row).job = some
      { j with kind := .read n, parts := readParts (row h) j.offset n, damage := true } := by
  rw [TransferUnit.damagedIn, hj, Option.map_some]
  simp [hbuffer, standAlone_buffered hkind, Job.isRead, hhandle]

end Sys2Proof.Machine
end

section
/-! PROOF. A tick takes the due row (R134, R135, R138, R139). -/

set_option Elab.async false

namespace Sys2Proof.Machine

variable {s : State} {g : Nat} {h : Fin 32} {e : Extent} {b : BankId}

/-! ### The refresh state -/

/-- The due pointer and the tick count after a tick. -/
def RefreshBank.ticked (r : RefreshBank) : RefreshBank := { r with due := r.due + 1, ticks := r.ticks + 1 }

theorem RefreshBank.ask_eq (r : RefreshBank) : r.ask = { r with request := r.request.or r.owed.head? } := by
  unfold RefreshBank.ask
  cases r.request <;> rfl

theorem RefreshBank.tick_hidden {r : RefreshBank} (hdue : r.fresh.getLsb r.due = true) :
    r.tick = { r.ticked with fresh := (r.withFresh r.due false).fresh, request := r.request.or r.owed.head? } := by
  rw [RefreshBank.tick, RefreshBank.tickOutcome_hidden hdue, RefreshBank.ask_eq]
  rfl

theorem RefreshBank.tick_owed {r : RefreshBank} (hdue : r.fresh.getLsb r.due = false) (hnot : r.due ∉ r.owed)
    (hroom : r.owed.length < 8) :
    r.tick = { r.ticked with owed := r.owed ++ [r.due], request := r.request.or (r.owed ++ [r.due]).head? } := by
  rw [RefreshBank.tick, RefreshBank.tickOutcome_owed hdue hnot hroom, RefreshBank.ask_eq]
  rfl

theorem RefreshBank.tick_lost {r : RefreshBank} (hdue : r.fresh.getLsb r.due = false)
    (hlost : r.due ∈ r.owed ∨ 8 ≤ r.owed.length) :
    r.tick = { r.ticked with request := r.request.or r.owed.head? } := by
  rw [RefreshBank.tick, RefreshBank.tickOutcome_lost hdue hlost, RefreshBank.ask_eq]
  rfl

theorem tickBank_kept_row (hkept : (s.refresh.get b).tickOutcome ≠ .lost) :
    tickBank b s = .quiet (s.setRefresh b (s.refresh.get b).tick) := by
  unfold tickBank
  dsimp only
  split
  · rename_i hlost
    exact absurd hlost hkept
  · rfl

theorem tickBank_lost (hlost : (s.refresh.get b).tickOutcome = .lost) :
    tickBank b s = lostRow (globalRowOf b (s.refresh.get b).due)
      (scrambleRow (globalRowOf b (s.refresh.get b).due) (s.setRefresh b (s.refresh.get b).tick)) := by
  simp only [tickBank, hlost]

theorem exec_tick (hready : ready s = true) :
    exec (.tick b) s = .next (tickBank b s).settleAndArbitrate :=
  congrArg Host.Outcome.next (whenRunning_ready _ hready)

theorem exec_tick_kept (hready : ready s = true) (hkept : (s.refresh.get b).tickOutcome ≠ .lost) :
    exec (.tick b) s = .next (arbitrate
      { s.setRefresh b (s.refresh.get b).tick with arrivals := s.arrivals.tail }) := by
  rw [exec_tick hready, tickBank_kept_row hkept, Act.settleAndArbitrate, settle_quiet]
  rfl

/-! ### The bytes of the lost row -/

theorem bankNumber_lt (b : BankId) : bankNumber b < 4 := by cases b <;> decide

theorem globalRowOf_lt (b : BankId) (r : Fin 1024) : globalRowOf b r < 4096 := by
  have hb := bankNumber_lt b
  have hr := r.isLt
  unfold globalRowOf
  omega

theorem byteAt_scrambleRow (hwf : Memory.wf s.store.cells = true) (hrow : g < 4096) (x : Nat) :
    (scrambleRow g s).store.byteAt x =
      if 512 * g ≤ x ∧ x < 512 * g + 512 then Config.unspecifiedByte (s.freeCount + 1) x else s.store.byteAt x := by
  have hlen : ((List.range rowBytes).map fun i =>
      Config.unspecifiedByte (s.freeCount + 1) (byteAddress g i)).length = 512 := by
    rw [List.length_map, List.length_range]
    rfl
  have hwrite := byteAt_writeAt hwf hrow (lo := 0) (Nat.le_of_eq ((Nat.zero_add _).trans hlen)) x
  simp only [hlen, Nat.add_zero] at hwrite
  refine hwrite.trans ?_
  by_cases hin : 512 * g ≤ x ∧ x < 512 * g + 512
  · have hi : x - 512 * g < 512 := by omega
    rw [if_pos hin, if_pos hin]
    simp [List.getD, rowBytes, hi, byteAddress, Nat.add_sub_of_le hin.1]
  · rw [if_neg hin, if_neg hin]

/-! ### The extent that holds the lost row -/

theorem holdsRow_iff : e.holdsRow g = true ↔ e.firstRow ≤ g ∧ g < e.firstRow + e.rows := by
  simp [Extent.holdsRow]

theorem extent_of_extents {t : State} (ht : t.extents = s.extents) (k : Fin 32) : t.extent k = s.extent k :=
  congrArg (fun x : ExtentManager => x.records[k]) ht

/-- The row lies in a record that names it. -/
theorem extentOfRow_holds (hrow : extentOfRow s g = some h) : ∃ e, s.extent h = some e ∧ e.holdsRow g = true := by
  have hq := holds_of_lowest hrow
  cases he : s.extent h with
  | none => simp [he] at hq
  | some e => exact ⟨e, rfl, by simpa [he] using hq⟩

/-- With the extents apart the record that holds a row is the one found. -/
theorem extentOfRow_eq (hinv : extentsInv s = true) (he : s.extent h = some e) (hrow : e.holdsRow g = true) :
    extentOfRow s g = some h := by
  refine lowest_eq_some_of (by simp [he, hrow]) fun k hk => ?_
  cases hf : s.extent k with
  | none => rfl
  | some f =>
    obtain ⟨-, -, hapart⟩ := extentsInv_iff.1 hinv h e he
    have hdisjoint := extentsApart_iff.1 (hapart k f hf (Ne.symm (ne_of_lt hk)))
    have hin := holdsRow_iff.1 hrow
    refine Bool.eq_false_iff.2 fun hholds => ?_
    have hin' := holdsRow_iff.1 hholds
    omega

theorem lostRow_free (hfree : ∀ h e, s.extent h = some e → e.holdsRow g = false) : lostRow g s = .quiet s := by
  unfold lostRow
  split
  · rfl
  · rename_i h hrow
    obtain ⟨e, he, hholds⟩ := extentOfRow_holds hrow
    rw [hfree h e he] at hholds
    cases hholds

theorem lostRow_of (hrow : extentOfRow s g = some h) (he : s.extent h = some e) :
    lostRow g s = if e.state = .clearing then .quiet (rewindClear h e g s) else damageExtent h e s := by
  simp only [lostRow, hrow, he]

/-- The record damaged, and every transfer unit told of it when it was READY. -/
def State.withDamage (s : State) (h : Fin 32) (e : Extent) : State :=
  let damaged := s.setExtent h (some { e with state := .damaged, lost := min 255 (e.lost + 1) })
  if e.state = .ready then noticeDamaged h damaged else damaged

theorem damageExtent_eq (h : Fin 32) (e : Extent) (s : State) : damageExtent h e s =
    (Act.quiet (s.withDamage h e)).sendAll .extents (damageAudience e) (.extentDamaged h (min 255 (e.lost + 1))) := rfl

theorem withDamage_frame (s : State) (h : Fin 32) (e : Extent) :
    ∃ banks transfer, s.withDamage h e =
      { s.setExtent h (some { e with state := .damaged, lost := min 255 (e.lost + 1) }) with
        banks := banks, transfer := transfer } := by
  unfold State.withDamage
  dsimp only
  split
  · exact noticeDamaged_frame h _
  · exact ⟨_, _, rfl⟩

theorem damageExtent_extents (h : Fin 32) (e : Extent) (s : State) :
    (damageExtent h e s).st.extents =
      (s.setExtent h (some { e with state := .damaged, lost := min 255 (e.lost + 1) })).extents := by
  obtain ⟨_, _, hs⟩ := withDamage_frame s h e
  rw [damageExtent_eq, Act.sendAll_st, Act.quiet_st, hs]

/-- A record that does not hold the lost row stays, and so does every clear list. -/
theorem lostRow_others (g : Nat) (s : State) :
    (lostRow g s).st.extents.clearLists = s.extents.clearLists ∧
      ∀ h e, s.extent h = some e → e.holdsRow g = false → (lostRow g s).st.extent h = some e := by
  cases hrow : extentOfRow s g with
  | none =>
    have hquiet : lostRow g s = .quiet s := by simp only [lostRow, hrow]
    rw [hquiet]
    exact ⟨rfl, fun _ _ he _ => he⟩
  | some k =>
    obtain ⟨f, hf, hholds⟩ := extentOfRow_holds hrow
    obtain ⟨v, hv⟩ : ∃ v, (lostRow g s).st.extents = (s.setExtent k (some v)).extents := by
      rw [lostRow_of hrow hf]
      split
      · exact ⟨_, rfl⟩
      · exact ⟨_, damageExtent_extents k f s⟩
    refine ⟨(congrArg ExtentManager.clearLists hv :), fun h e he hnot => ?_⟩
    have hne : h ≠ k := fun heq => by
      subst heq
      rw [Option.some.inj (hf.symm.trans he), hnot] at hholds
      cases hholds
    rw [extent_of_extents hv, State.setExtent_extent_other _ _ hne]
    exact he

theorem nodup_damageAudience (e : Extent) : (damageAudience e).Nodup := nodup_allPorts.filter _

theorem mem_damageAudience {p : PortId} : p ∈ damageAudience e ↔ e.owner = some p ∨ e.counts.get p ≠ 0 := by
  simp [damageAudience, mem_allPorts]

theorem withDamage_quiet (hstate : e.state ≠ .ready) :
    (s.withDamage h e).transfer = s.transfer ∧ (s.withDamage h e).banks = s.banks := by
  rw [State.withDamage, if_neg hstate]
  exact ⟨rfl, rfl⟩

theorem withDamage_unit (he : s.extent h = some e) (hstate : e.state = .ready) (p : PortId) :
    (s.withDamage h e).transfer.get p = (s.transfer.get p).damagedIn h s.firstRowOf := by
  have hrow : (s.setExtent h (some { e with state := .damaged, lost := min 255 (e.lost + 1) })).firstRowOf =
      s.firstRowOf := by
    funext k
    by_cases hk : k = h
    · subst hk
      rw [State.firstRowOf, State.setExtent_extent_same, State.firstRowOf, he]
      rfl
    · rw [State.firstRowOf, State.setExtent_extent_other _ _ hk, State.firstRowOf]
  rw [State.withDamage, if_pos hstate, noticeDamaged_unit, hrow]
  rfl

theorem withDamage_inFlight (hstate : e.state = .ready) {c : BankId} {a : Access}
    (ha : (s.banks.get c).inFlight = some a) : ((s.withDamage h e).banks.get c).inFlight = some
      { a with wanted := a.wanted &&
          !allPorts.any fun p => decide (a.requester = .transfer p) && fetchesFrom s p h } := by
  rw [State.withDamage, if_pos hstate]
  exact noticeDamaged_inFlight ha

/-- Who is told that the extent is damaged. -/
theorem settle_damageExtent_ports (s : State) (h : Fin 32) (e : Extent) (p : PortId) :
    (damageExtent h e s).settle.ports.get p =
      if (e.owner = some p ∨ e.counts.get p ≠ 0) ∧ (s.session.records.get p).takesEvents = true then
        (s.ports.get p).takeEvent (.extentDamaged h (min 255 (e.lost + 1)))
      else s.ports.get p := by
  obtain ⟨_, _, hs⟩ := withDamage_frame s h e
  rw [damageExtent_eq, (settle_sendAll (nodup_damageAudience e) .extents _).2 p, hs]
  exact if_congr (and_congr_left' mem_damageAudience) rfl rfl

/-! ### A lost row -/

/-- The state with the tick taken and the bytes of the lost row replaced. -/
def State.rowLost (s : State) (b : BankId) : State :=
  scrambleRow (globalRowOf b (s.refresh.get b).due) (s.setRefresh b (s.refresh.get b).tick)

/-- The state after a tick that loses its row, before the idle banks decide. -/
def State.afterLoss (s : State) (b : BankId) : State :=
  (lostRow (globalRowOf b (s.refresh.get b).due) (s.rowLost b)).settle

theorem exec_tick_lost (hready : ready s = true) (hlost : (s.refresh.get b).tickOutcome = .lost) :
    exec (.tick b) s = .next (arbitrate (s.afterLoss b)) := by
  rw [exec_tick hready, tickBank_lost hlost]
  rfl

theorem afterLoss_frame (s : State) (b : BankId) : ∃ ports extents banks transfer, s.afterLoss b =
    { s.rowLost b with
      ports := ports, extents := extents, banks := banks, transfer := transfer, arrivals := s.arrivals.tail } := by
  obtain ⟨⟨extents, banks, transfer, hst⟩, hend⟩ :=
    lostRow_onExtents (globalRowOf b (s.refresh.get b).due) (s.rowLost b)
  refine ⟨(s.afterLoss b).ports, extents, banks, transfer, (settle_eq_of_no_end hend).trans ?_⟩
  rw [hst]
  rfl

theorem afterLoss_others (s : State) (b : BankId) :
    (s.afterLoss b).extents.clearLists = s.extents.clearLists ∧
      ∀ h e, s.extent h = some e → e.holdsRow (globalRowOf b (s.refresh.get b).due) = false →
        (s.afterLoss b).extent h = some e := by
  obtain ⟨hlists, hkept⟩ := lostRow_others (globalRowOf b (s.refresh.get b).due) (s.rowLost b)
  have hsettled := settle_extents (lostRow (globalRowOf b (s.refresh.get b).due) (s.rowLost b))
  exact ⟨(congrArg ExtentManager.clearLists hsettled).trans hlists,
    fun h e he hnot => (extent_of_extents hsettled h).trans (hkept h e he hnot)⟩

theorem afterLoss_free
    (hfree : ∀ h e, s.extent h = some e → e.holdsRow (globalRowOf b (s.refresh.get b).due) = false) :
    (s.afterLoss b).ports = s.ports ∧ (s.afterLoss b).transfer = s.transfer ∧ (s.afterLoss b).banks = s.banks := by
  rw [State.afterLoss, lostRow_free (s := s.rowLost b) hfree, settle_quiet]
  exact ⟨rfl, rfl, rfl⟩

section
variable (hinv : extentsInv s = true) (he : s.extent h = some e)
  (hrow : e.holdsRow (globalRowOf b (s.refresh.get b).due) = true)
include hinv he hrow

theorem afterLoss_of : s.afterLoss b =
    (if e.state = .clearing then Act.quiet (rewindClear h e (globalRowOf b (s.refresh.get b).due) (s.rowLost b))
      else damageExtent h e (s.rowLost b)).settle :=
  congrArg Act.settle (lostRow_of (s := s.rowLost b) (extentOfRow_eq (s := s.rowLost b) hinv he hrow) he)

theorem afterLoss_clearing (hstate : e.state = .clearing) : s.afterLoss b =
    (Act.quiet (rewindClear h e (globalRowOf b (s.refresh.get b).due) (s.rowLost b))).settle := by
  rw [afterLoss_of hinv he hrow, if_pos hstate]

theorem afterLoss_damage (hstate : e.state ≠ .clearing) :
    s.afterLoss b = (damageExtent h e (s.rowLost b)).settle := by
  rw [afterLoss_of hinv he hrow, if_neg hstate]

theorem afterLoss_extent : (s.afterLoss b).extent h = some
    (if e.state = .clearing then
      { e with progress := min e.progress (globalRowOf b (s.refresh.get b).due - e.firstRow) }
    else { e with state := .damaged, lost := min 255 (e.lost + 1) }) := by
  by_cases hstate : e.state = .clearing
  · rw [if_pos hstate, afterLoss_clearing hinv he hrow hstate, extent_of_extents (settle_extents _)]
    exact State.setExtent_extent_same _ _ _
  · rw [if_neg hstate, afterLoss_damage hinv he hrow hstate,
      extent_of_extents ((settle_extents _).trans (damageExtent_extents h e _))]
    exact State.setExtent_extent_same _ _ _

theorem afterLoss_ports (p : PortId) : (s.afterLoss b).ports.get p =
    if e.state ≠ .clearing ∧ (e.owner = some p ∨ e.counts.get p ≠ 0) ∧
      (s.session.records.get p).takesEvents = true then
      (s.ports.get p).takeEvent (.extentDamaged h (min 255 (e.lost + 1)))
    else s.ports.get p := by
  by_cases hstate : e.state = .clearing
  · rw [afterLoss_clearing hinv he hrow hstate, if_neg fun hand => hand.1 hstate, settle_quiet]
    rfl
  · rw [afterLoss_damage hinv he hrow hstate, settle_damageExtent_ports]
    exact if_congr ⟨fun hand => ⟨hstate, hand⟩, fun hand => hand.2⟩ rfl rfl

theorem afterLoss_quiet (hstate : e.state ≠ .ready) :
    (s.afterLoss b).transfer = s.transfer ∧ (s.afterLoss b).banks = s.banks := by
  by_cases hclearing : e.state = .clearing
  · rw [afterLoss_clearing hinv he hrow hclearing, settle_quiet]
    exact ⟨rfl, rfl⟩
  · rw [afterLoss_damage hinv he hrow hclearing, settle_transfer, settle_banks, damageExtent_eq, Act.sendAll_st]
    exact withDamage_quiet (s := s.rowLost b) hstate

variable (hstate : e.state = .ready)
include hstate

theorem afterLoss_ready : s.afterLoss b = (damageExtent h e (s.rowLost b)).settle :=
  afterLoss_damage hinv he hrow (by rw [hstate]; decide)

theorem afterLoss_unit (p : PortId) :
    (s.afterLoss b).transfer.get p = (s.transfer.get p).damagedIn h s.firstRowOf := by
  rw [afterLoss_ready hinv he hrow hstate, settle_transfer, damageExtent_eq, Act.sendAll_st]
  exact withDamage_unit (s := s.rowLost b) he hstate p

theorem afterLoss_inFlight {c : BankId} {a : Access} (ha : (s.banks.get c).inFlight = some a) :
    ((s.afterLoss b).banks.get c).inFlight = some
      { a with wanted := a.wanted &&
          !allPorts.any fun p => decide (a.requester = .transfer p) && fetchesFrom s p h } := by
  rw [afterLoss_ready hinv he hrow hstate, settle_banks, damageExtent_eq, Act.sendAll_st]
  exact withDamage_inFlight (s := s.rowLost b) hstate ha

end

end Sys2Proof.Machine
end

section
set_option Elab.async false

open Sys2Proof Sys2Proof.Machine

/-- Settles O48: the refresh state by the fate of the due row, and the loss of a row by the record that holds it. -/
theorem tickTakesTheDueRow : Obligations.TickTakesTheDueRow := by
  unfold Obligations.TickTakesTheDueRow
  intro b s hready k g ticked after
  refine ⟨fun hdue => ⟨(k.withFresh k.due false).fresh, fun x => by
      rw [k.withFresh_false_getLsb, decide_not], ?_⟩,
    fun hdue hnot hroom => ?_, fun hdue hlost hwf => ?_⟩
  · rw [exec_tick_kept hready (by rw [RefreshBank.tickOutcome_hidden hdue]; decide), RefreshBank.tick_hidden hdue]
    rfl
  · rw [exec_tick_kept hready (by rw [RefreshBank.tickOutcome_owed hdue hnot hroom]; decide),
      RefreshBank.tick_owed hdue hnot hroom]
    rfl
  · obtain ⟨ports, extents, banks, transfer, hframe⟩ := afterLoss_frame s b
    obtain ⟨hlists, hothers⟩ := afterLoss_others s b
    refine ⟨s.afterLoss b, _, exec_tick_lost hready (RefreshBank.tickOutcome_lost hdue hlost), rfl, ?_, ?_,
      fun x => ?_, fun h e he => ⟨fun hnot => ?_, fun hfirst hlast hinv => ?_⟩, fun hfree => ?_, ?_, ?_, ?_, ?_, ?_⟩
    · rw [arbitrate_refresh, hframe]
      exact congrArg (s.refresh.set b) (RefreshBank.tick_lost hdue hlost)
    · rw [arbitrate_freeCount, hframe]
      rfl
    · rw [arbitrate_store, hframe]
      exact byteAt_scrambleRow (s := s.setRefresh b k.tick) hwf (globalRowOf_lt b k.due) x
    · rw [arbitrate_extent]
      exact hothers h e he (Bool.eq_false_iff.2 fun hholds => hnot (holdsRow_iff.1 hholds))
    · have hrow : e.holdsRow (globalRowOf b (s.refresh.get b).due) = true := holdsRow_iff.2 ⟨hfirst, hlast⟩
      refine ⟨?_, fun p => ?_, afterLoss_quiet hinv he hrow, fun hstate => ⟨fun p => ?_, fun c a =>
        afterLoss_inFlight hinv he hrow hstate⟩⟩
      · rw [arbitrate_extent]
        exact afterLoss_extent hinv he hrow
      · rw [arbitrate_ports]
        exact afterLoss_ports hinv he hrow p
      · intro x y
        have hunit : y = x.damagedIn h s.firstRowOf := afterLoss_unit hinv he hrow hstate p
        rw [hunit]
        refine ⟨rfl, rfl, fun hnone => by rw [TransferUnit.damagedIn, hnone]; rfl, fun j hj =>
          ⟨damagedIn_kept hj, fun n => damagedIn_read hj, fun n hkind hhandle hbuffer => ?_⟩⟩
        rw [damagedIn_buffered hj hkind hhandle hbuffer, firstRowOf_of_record he]
    · rw [arbitrate_ports]
      exact afterLoss_free fun h e he => Bool.eq_false_iff.2 fun hholds => hfree h e he (holdsRow_iff.1 hholds)
    · rw [arbitrate_extents]
      exact hlists
    · rw [arbitrate_session, hframe]
      rfl
    · rw [arbitrate_commit, hframe]
      rfl
    · rw [arbitrate_check, hframe]
      rfl
    · rw [arbitrate_palette, hframe]
      rfl

end

section
/-! SUPPORT. What each block sends at a blank start, origin by origin. -/

set_option Elab.async false

namespace Sys2Proof.Machine

variable {s : State} {a : Act} {x o : Origin}

/-! ### Actions that send for one block, besides responses -/

/-- What the action sends is of origin `x` or a response. -/
def Act.sentOnly (a : Act) (x : Origin) : Prop := ∀ m ∈ a.out, m.1 = x ∨ m.1 = .response

theorem Act.sentOnly_quiet (s : State) (x : Origin) : (Act.quiet s).sentOnly x := nofun

theorem Act.sentOnly.andThen {f : State → Act} (ha : a.sentOnly x) (hf : (f a.st).sentOnly x) :
    (a.andThen f).sentOnly x := by
  intro m hm
  rw [Act.andThen_out, List.mem_append] at hm
  exact hm.elim (ha m) (hf m)

theorem Act.sentOnly.sendAll (ha : a.sentOnly x) (l : List PortId) (e : Event) : (a.sendAll x l e).sentOnly x := by
  intro m hm
  rw [Act.sendAll_out, List.mem_append] at hm
  refine hm.elim (ha m) fun hm => ?_
  obtain ⟨v, -, rfl⟩ := List.mem_map.1 hm
  exact .inl rfl

theorem Act.onlyAnswers.sentOnly (ha : a.onlyAnswers) (x : Origin) : a.sentOnly x := fun m hm => by
  obtain ⟨v, r, payload, rfl⟩ := ha m hm
  exact .inr rfl

theorem Act.sentOnly.forEach {α : Type} {f : α → State → Act} (ha : a.sentOnly x) (l : List α)
    (hf : ∀ y u, (f y u).sentOnly x) : (a.forEach l f).sentOnly x :=
  Act.forEach_keeps (P := fun b => b.sentOnly x) l ha fun y _ b hb => hb.andThen (hf y b.st)

theorem Act.sentOnly.sent (ha : a.sentOnly x) (hx : o ≠ x) (ho : o ≠ .response) : a.sent o = [] := by
  have hnone : a.out.filter (fun m => decide (m.1 = o)) = [] := List.filter_eq_nil_iff.2 fun m hm => by
    have horigin : m.1 ≠ o := fun heq => (ha m hm).elim (fun h => hx (heq.symm.trans h)) fun h => ho (heq.symm.trans h)
    simpa using horigin
  rw [Act.sent, hnone]
  rfl

/-- The messages of an action that sends for one block alone. -/
theorem sent_of_map (s : State) (l : List Msg) (x : Origin) : (Act.mk s (l.map fun m => (x, m))).sent x = l := by
  simp [Act.sent, List.filter_map, Function.comp_def]

/-! ### The blocks at a blank start -/

theorem batchEvent_origin {p : PortId} {m : Origin × Msg} (hm : m ∈ batchEvent s p) : m.1 = .commit := by
  unfold batchEvent at hm
  split at hm
  · cases hm
  · rw [List.mem_singleton.1 hm]
  · rw [List.mem_singleton.1 hm]

theorem commitBlank_sentOnly (s : State) : (commitBlank s).sentOnly .commit := fun m hm => by
  obtain ⟨p, -, hp⟩ := List.mem_flatMap.1 hm
  exact .inl (batchEvent_origin hp)

theorem releaseIfUnreferenced_sentOnly (h : Fin 32) (s : State) : (releaseIfUnreferenced h s).sentOnly .extents := by
  unfold releaseIfUnreferenced
  split
  · rename_i e he
    split
    · rw [releaseExtent_eq he]
      exact ((Act.sentOnly_quiet _ _).sendAll _ _).andThen ((noticeFreed_onlyAnswers h _).sentOnly _)
    · exact Act.sentOnly_quiet s _
  · exact Act.sentOnly_quiet s _

theorem endWithdrawal_sentOnly (old : Extent) (h : Fin 32) (p : PortId) (s : State) :
    (endWithdrawal old h p s).sentOnly .extents := by
  unfold endWithdrawal
  split
  · exact Act.sentOnly_quiet s _
  · split
    · refine Act.sentOnly.andThen (fun m hm => .inl ?_) ((loseExtent_onlyAnswers h .notGranted p _).sentOnly _)
      dsimp only [withdrawalEvents] at hm
      split at hm
      · simp only [List.mem_cons, List.not_mem_nil, or_false] at hm
        rcases hm with rfl | rfl <;> rfl
      · split at hm
        · cases hm
        · rw [List.mem_singleton.1 hm]
    · exact Act.sentOnly_quiet s _

theorem clearGrant_onlyAnswers (h : Fin 32) (p : PortId) (s : State) : (clearGrant h p s).onlyAnswers := by
  unfold clearGrant
  split
  · exact Act.onlyAnswers_quiet s
  · split
    · exact Act.onlyAnswers_quiet s
    · exact loseExtent_onlyAnswers h .notGranted p _

theorem extentBlank_sentOnly (old : State) (h : Fin 32) (s : State) : (extentBlank old h s).sentOnly .extents := by
  unfold extentBlank
  split
  · exact Act.sentOnly_quiet s _
  · exact (((Act.sentOnly_quiet s _).forEach _ fun p u => endWithdrawal_sentOnly _ h p u).forEach _
      fun p u => (clearGrant_onlyAnswers h p u).sentOnly _).andThen (releaseIfUnreferenced_sentOnly h _)

theorem extentsBlank_sentOnly (old s : State) : (extentsBlank old s).sentOnly .extents :=
  (Act.sentOnly_quiet _ _).forEach _ fun h u => extentBlank_sentOnly old h u

theorem windowEvents_origin {n : Fin 8} {w : Window} {m : Origin × Msg} (hm : m ∈ windowEvents s n w) :
    m.1 = .check := by
  rcases List.mem_append.1 hm with hm | hm
  · split at hm
    · rw [List.mem_singleton.1 hm]
    · cases hm
  · split at hm
    · obtain ⟨v, -, rfl⟩ := List.mem_map.1 hm
      rfl
    · cases hm

theorem windowBlank_sentOnly (n : Fin 8) (s : State) : (windowBlank n s).sentOnly .check := by
  unfold windowBlank
  split
  · exact Act.sentOnly_quiet s _
  · split
    · exact fun m hm => .inl (windowEvents_origin hm)
    · exact Act.sentOnly_quiet s _

theorem windowsBlank_sentOnly (s : State) : (windowsBlank s).sentOnly .check :=
  (Act.sentOnly_quiet s _).forEach _ fun n u => windowBlank_sentOnly n u

theorem sessionsBlank_sentOnly (old s : State) : (sessionsBlank old s).sentOnly .session := fun m hm => by
  obtain ⟨p, -, rfl⟩ := List.mem_map.1 hm
  exact .inl rfl

theorem adoptionBlank_sentOnly (s : State) : (adoptionBlank s).sentOnly .plan := by
  unfold adoptionBlank
  split
  · split
    · exact (Act.sentOnly_quiet _ _).sendAll _ _
    · exact (Act.sentOnly_quiet _ _).sendAll _ _
  · exact Act.sentOnly_quiet s _

/-! ### The blank start, origin by origin -/

/-- The state after the batches are taken. -/
def afterBatches (s : State) : State := (commitBlank { s with scan := s.scan.toLine .blank 0 }).st

/-- The state after the extents too are brought up to the blank start. -/
def afterExtents (s : State) : State := (extentsBlank s (afterBatches s)).st

/-- The state after the palette too. -/
def afterPalette (s : State) : State := paletteBlank (published s) (teardownEnds s) (afterExtents s)

theorem afterPalette_eq (s : State) :
    (((commitBlank { s with scan := s.scan.toLine .blank 0 }).andThen (extentsBlank s)).change
      (paletteBlank (published s) (teardownEnds s))).st = afterPalette s := by
  rw [Act.change_st, Act.andThen_st, afterPalette, afterExtents, afterBatches]

theorem beforeAdoption_eq (s : State) : beforeAdoption s = (windowsBlank (afterPalette s)).st := by
  rw [beforeAdoption, Act.andThen_st, Act.andThen_st, afterPalette_eq, sessionsBlank]

theorem sessionsBlank_st (old s : State) : (sessionsBlank old s).st = s := rfl

theorem blankAct_sent (s : State) (o : Origin) : (blankAct s).sent o =
    (commitBlank { s with scan := s.scan.toLine .blank 0 }).sent o ++ (extentsBlank s (afterBatches s)).sent o ++
      (windowsBlank (afterPalette s)).sent o ++ (sessionsBlank s (windowsBlank (afterPalette s)).st).sent o ++
        (adoptionBlank (beforeAdoption s)).sent o := by
  rw [blankAct, sent_andThen, sent_andThen, sent_andThen, sent_change, sent_andThen, Act.andThen_st, Act.andThen_st,
    afterPalette_eq, sessionsBlank_st, Act.andThen_st, afterPalette_eq, beforeAdoption_eq, afterBatches]

theorem blankAct_sent_commit (s : State) :
    (blankAct s).sent .commit = (commitBlank { s with scan := s.scan.toLine .blank 0 }).sent .commit := by
  rw [blankAct_sent, (extentsBlank_sentOnly _ _).sent (by decide) (by decide),
    (windowsBlank_sentOnly _).sent (by decide) (by decide), (sessionsBlank_sentOnly _ _).sent (by decide) (by decide),
    (adoptionBlank_sentOnly _).sent (by decide) (by decide)]
  simp

theorem blankAct_sent_extents (s : State) :
    (blankAct s).sent .extents = (extentsBlank s (afterBatches s)).sent .extents := by
  rw [blankAct_sent, (commitBlank_sentOnly _).sent (by decide) (by decide),
    (windowsBlank_sentOnly _).sent (by decide) (by decide), (sessionsBlank_sentOnly _ _).sent (by decide) (by decide),
    (adoptionBlank_sentOnly _).sent (by decide) (by decide)]
  simp

theorem blankAct_sent_check (s : State) : (blankAct s).sent .check = (windowsBlank (afterPalette s)).sent .check := by
  rw [blankAct_sent, (commitBlank_sentOnly _).sent (by decide) (by decide),
    (extentsBlank_sentOnly _ _).sent (by decide) (by decide), (sessionsBlank_sentOnly _ _).sent (by decide) (by decide),
    (adoptionBlank_sentOnly _).sent (by decide) (by decide)]
  simp

theorem blankAct_sent_session (s : State) :
    (blankAct s).sent .session = (sessionsBlank s (windowsBlank (afterPalette s)).st).sent .session := by
  rw [blankAct_sent, (commitBlank_sentOnly _).sent (by decide) (by decide),
    (extentsBlank_sentOnly _ _).sent (by decide) (by decide), (windowsBlank_sentOnly _).sent (by decide) (by decide),
    (adoptionBlank_sentOnly _).sent (by decide) (by decide)]
  simp

theorem blankAct_sent_plan (s : State) :
    (blankAct s).sent .plan = (adoptionBlank (beforeAdoption s)).sent .plan := by
  rw [blankAct_sent, (commitBlank_sentOnly _).sent (by decide) (by decide),
    (extentsBlank_sentOnly _ _).sent (by decide) (by decide), (windowsBlank_sentOnly _).sent (by decide) (by decide),
    (sessionsBlank_sentOnly _ _).sent (by decide) (by decide)]
  simp

/-! ### The command -/

theorem exec_blankStart (hready : ready s = true) (hphase : s.scan.phase = .active)
    (hline : s.scan.lineNo + 1 = s.scan.timing.height) : exec .blankStart s = .next (arbitrate (blankAct s).settle) := by
  have hdue : blankStartDue s = true := by simp [blankStartDue, hphase, hline]
  refine congrArg Host.Outcome.next ((whenRunning_ready _ hready).trans ?_)
  rw [if_pos hdue]
  rfl

theorem blankAct_ports (s : State) : (blankAct s).st.ports = s.ports := by
  obtain ⟨_, _, _, _, _, _, h⟩ := blankAct_frame s
  rw [h]

theorem afterExtents_frame (s : State) : ∃ extents banks transfer, afterExtents s =
    { s with
      scan := s.scan.toLine .blank 0, commit := (commitBlank s).st.commit
      extents := extents, banks := banks, transfer := transfer } := by
  obtain ⟨⟨e, b, t, h⟩, -⟩ := extentsBlank_onExtents s (afterBatches s)
  refine ⟨e, b, t, ?_⟩
  rw [afterExtents, h]
  rfl

theorem startBlank_check (s : State) : (startBlank s).check = (windowsBlank (afterPalette s)).st.check := by
  obtain ⟨⟨_, _, hadopt⟩, -⟩ := adoptionBlank_frame (beforeAdoption s)
  have hact : (blankAct s).st = (adoptionBlank (beforeAdoption s)).st := by
    rw [blankAct, Act.andThen_st, beforeAdoption]
  rw [startBlank, Act.settleAndArbitrate, arbitrate_check, settle_check, hact, hadopt, ← beforeAdoption_eq]

end Sys2Proof.Machine
end

section
/-! PROOF. The windows at a blank start (R93 to R96). -/

set_option Elab.async false

namespace Sys2Proof.Machine

variable {s : State} {n : Fin 8} {w : Window}

/-- What a blank start makes of a window. -/
def finishedWindow : Option Window → Option Window
  | none => none
  | some w => some (if w.state = .running then { recordResult w with state := (recordResult w).afterFrame } else w)

/-- What a blank start sends of a window. -/
def windowSends (s : State) (n : Fin 8) : List Msg := (windowBlank n s).sent .check

theorem windowBlank_running (hw : s.window n = some w) (hstate : w.state = .running) : windowBlank n s =
    ⟨s.setWindow n (some { recordResult w with state := (recordResult w).afterFrame }),
      windowEvents s n (recordResult w)⟩ := by
  simp only [windowBlank, hw, hstate, if_true]

theorem windowBlank_none (hw : s.window n = none) : windowBlank n s = .quiet s := by simp only [windowBlank, hw]

theorem windowBlank_idle (hw : s.window n = some w) (hstate : w.state ≠ .running) : windowBlank n s = .quiet s := by
  simp only [windowBlank, hw, if_neg hstate]

theorem windowBlank_window_same (n : Fin 8) (s : State) :
    (windowBlank n s).st.window n = finishedWindow (s.window n) := by
  cases hw : s.window n with
  | none =>
    rw [windowBlank_none hw]
    exact hw
  | some w =>
    by_cases hstate : w.state = .running
    · rw [windowBlank_running hw hstate, finishedWindow, if_pos hstate]
      exact State.setWindow_window_same _ _ _
    · rw [windowBlank_idle hw hstate, finishedWindow, if_neg hstate]
      exact hw

theorem windowBlank_window_other {m : Fin 8} (s : State) (hm : m ≠ n) :
    (windowBlank n s).st.window m = s.window m := by
  unfold windowBlank
  split
  · rfl
  · split
    · exact State.setWindow_window_other _ _ hm
    · rfl

theorem joinedPorts_of_session {t : State} (hsession : t.session = s.session) : joinedPorts t = joinedPorts s :=
  congrArg (fun u : SessionUnit => allPorts.filter fun p => decide ((u.records.get p).state = .joined)) hsession

theorem windowSends_congr {t : State} (hwindow : t.window n = s.window n) (hsession : t.session = s.session) :
    windowSends t n = windowSends s n := by
  cases hw : s.window n with
  | none =>
    rw [windowSends, windowSends, windowBlank_none (hwindow.trans hw), windowBlank_none hw]
    rfl
  | some w =>
    by_cases hstate : w.state = .running
    · rw [windowSends, windowSends, windowBlank_running (hwindow.trans hw) hstate, windowBlank_running hw hstate]
      have haudience : faultAudience t (recordResult w) = faultAudience s (recordResult w) := by
        unfold faultAudience
        rw [joinedPorts_of_session hsession]
      simp only [Act.sent, windowEvents, haudience]
    · rw [windowSends, windowSends, windowBlank_idle (hwindow.trans hw) hstate, windowBlank_idle hw hstate]
      rfl

/-- The windows of a list, taken in its order: each by itself. -/
theorem windowsBlank_of_list (l : List (Fin 8)) (hl : l.Nodup) (s : State) :
    (∀ n, ((Act.quiet s).forEach l windowBlank).st.window n =
        if n ∈ l then finishedWindow (s.window n) else s.window n) ∧
      ((Act.quiet s).forEach l windowBlank).sent .check = l.flatMap (windowSends s) := by
  induction l generalizing s with
  | nil => exact ⟨fun n => rfl, rfl⟩
  | cons m rest ih =>
    obtain ⟨hm, hrest⟩ := List.nodup_cons.1 hl
    obtain ⟨hwindows, hsent⟩ := ih hrest (windowBlank m s).st
    obtain ⟨⟨_, hframe⟩, -⟩ := windowBlank_frame m s
    rw [Act.quiet_forEach_cons]
    refine ⟨fun n => ?_, ?_⟩
    · rw [Act.andThen_st, hwindows n]
      by_cases hn : n = m
      · subst hn
        rw [if_neg hm, if_pos List.mem_cons_self, windowBlank_window_same]
      · rw [windowBlank_window_other s hn]
        simp only [List.mem_cons, hn, false_or]
    · rw [sent_andThen, hsent, List.flatMap_cons]
      refine congrArg (windowSends s m ++ ·) (List.flatMap_congr fun n hn => ?_)
      exact windowSends_congr (windowBlank_window_other s (ne_of_mem_of_not_mem hn hm)) (by rw [hframe])

theorem windowsBlank_window (s : State) (n : Fin 8) :
    (windowsBlank s).st.window n = finishedWindow (s.window n) :=
  ((windowsBlank_of_list _ (List.nodup_finRange 8) s).1 n).trans (if_pos (List.mem_finRange n))

theorem windowsBlank_sent (s : State) :
    (windowsBlank s).sent .check = (List.finRange 8).flatMap (windowSends s) :=
  (windowsBlank_of_list _ (List.nodup_finRange 8) s).2

theorem afterPalette_window (s : State) (n : Fin 8) : (afterPalette s).window n = s.window n := by
  obtain ⟨_, _, _, h⟩ := afterExtents_frame s
  rw [afterPalette, h]
  rfl

theorem afterPalette_session (s : State) : (afterPalette s).session = s.session := by
  obtain ⟨_, _, _, h⟩ := afterExtents_frame s
  rw [afterPalette, h]
  rfl

theorem startBlank_window (s : State) (n : Fin 8) : (startBlank s).window n = finishedWindow (s.window n) := by
  have hsame : (startBlank s).window n = (windowsBlank (afterPalette s)).st.window n :=
    congrArg (fun c : CheckUnit => c.windows[n]) (startBlank_check s)
  rw [hsame, windowsBlank_window, afterPalette_window]

theorem blankAct_windows_sent (s : State) :
    (blankAct s).sent .check = (List.finRange 8).flatMap (windowSends s) := by
  rw [blankAct_sent_check, windowsBlank_sent]
  exact List.flatMap_congr fun n _ => windowSends_congr (afterPalette_window s n) (afterPalette_session s)

theorem windowEvents_sent (s t : State) (n : Fin 8) (w : Window) : (Act.mk t (windowEvents s n w)).sent .check =
    (match w.settings.report with
      | .results => [Msg.event w.owner (.checkResult n w.lastResult w.register)]
      | .faults => []) ++
    if w.settings.threshold ≤ w.consecutive then
      (match w.settings.scope with
        | .owner => [w.owner]
        | .all => allPorts.filter s.joined).map fun p =>
          Msg.event p (.checkFault n w.owner w.consecutive w.register)
    else [] := by
  have hall : (windowEvents s n w).filter (fun m => decide (m.1 = .check)) = windowEvents s n w :=
    List.filter_eq_self.2 fun m hm => decide_eq_true (windowEvents_origin hm)
  rw [Act.sent, hall, windowEvents, List.map_append, Window.faulty, faultAudience, joinedPorts]
  simp only [decide_eq_true_eq]
  refine congrArg₂ (· ++ ·) ?_ ?_
  · cases w.settings.report <;> rfl
  · split
    · rw [List.map_map]
      rfl
    · rfl

theorem windowSends_running (hw : s.window n = some w) (hstate : w.state = .running) : windowSends s n =
    (match w.settings.report with
      | .results => [Msg.event w.owner (.checkResult n (windowResult w) w.register)]
      | .faults => []) ++
    if w.settings.threshold ≤ (recordResult w).consecutive then
      (match w.settings.scope with
        | .owner => [w.owner]
        | .all => allPorts.filter s.joined).map fun p =>
          Msg.event p (.checkFault n w.owner (recordResult w).consecutive w.register)
    else [] := by
  rw [windowSends, windowBlank_running hw hstate]
  exact windowEvents_sent s _ n (recordResult w)

theorem afterFrame_eq (w : Window) : w.afterFrame =
    if w.settings.threshold ≤ w.consecutive then .halted
    else if w.settings.mode = .oneShot then .idle else .running := by
  simp only [Window.afterFrame, Window.faulty, decide_eq_true_eq]
  cases w.settings.mode <;> rfl

end Sys2Proof.Machine
end

section
set_option Elab.async false

open Sys2Proof Sys2Proof.Machine

/-- Settles O46: each window by itself, in ascending number, by whether it is RUNNING. -/
theorem runningWindowsFinish : Obligations.RunningWindowsFinish := by
  unfold Obligations.RunningWindowsFinish
  intro s hready hphase hline
  refine ⟨startBlank s, exec_blankStart hready hphase hline, rfl, blankAct_ports s, windowSends s, blankAct_windows_sent s,
    fun n => ⟨fun hnone => ⟨?_, ?_⟩, fun w hw => ⟨fun hstate => ⟨?_, ?_⟩, fun hstate => ?_⟩⟩⟩
  · exact (startBlank_window s n).trans (congrArg finishedWindow hnone)
  · rw [windowSends, windowBlank_none hnone]
    exact sent_quiet s _
  · refine (startBlank_window s n).trans ?_
    rw [hw, finishedWindow, if_neg hstate]
  · rw [windowSends, windowBlank_idle hw hstate]
    exact sent_quiet s _
  · intro result fails
    refine ⟨(startBlank_window s n).trans ?_, windowSends_running hw hstate⟩
    rw [hw, finishedWindow, if_pos hstate, afterFrame_eq]
    rfl

end

section
/-! SUPPORT. The batches at a blank start: which are due, and what is made of them (R55 to R66). -/

set_option Elab.async false

namespace Sys2Proof.Machine

variable {s : State} {p : PortId} {l : Fin 16} {b : Fin 64} {d : Descriptor} {edits : List Edit}

/-! ### The verdict -/

theorem batchDue_iff : batchDue s p = true ↔ (s.commit.batches.get p).state = .closed ∧
    ∀ f, (s.commit.batches.get p).target = some f → (s.scan.frameCounter + 1 - f).toNat < 32768 := by
  rw [batchDue, Bool.and_eq_true, decide_eq_true_eq]
  refine and_congr_right fun _ => ?_
  cases (s.commit.batches.get p).target with
  | none => simp [targetReached]
  | some f => simp [targetReached, atOrAfter, nextFrame]

theorem verdict_of_waiting (h : batchDue s p = false) : verdict s p = .wait := by
  rw [verdict, h]
  rfl

theorem verdict_of_applied (hdue : batchDue s p = true)
    (hfits : batchFailure s p (s.commit.batches.get p).edits = none) :
    verdict s p = .apply (s.commit.batches.get p).edits := by
  rw [verdict, if_pos hdue, hfits]

theorem verdict_of_rejected {r : Rejection} (hdue : batchDue s p = true)
    (hfails : batchFailure s p (s.commit.batches.get p).edits = some r) : verdict s p = .reject r := by
  rw [verdict, if_pos hdue, hfails]

theorem verdict_apply_iff : verdict s p = .apply edits ↔ batchDue s p = true ∧
    edits = (s.commit.batches.get p).edits ∧ batchFailure s p (s.commit.batches.get p).edits = none := by
  constructor
  · intro h
    obtain ⟨hedits, hfits⟩ := verdict_apply h
    refine ⟨Bool.of_not_eq_false fun hwait => ?_, hedits, hedits ▸ hfits⟩
    rw [verdict_of_waiting hwait] at h
    cases h
  · rintro ⟨hdue, rfl, hfits⟩
    exact verdict_of_applied hdue hfits

/-! ### Buffers and messages -/

/-- What a blank start sends of a port's batch. -/
def batchSends (s : State) (p : PortId) : List Msg := (batchEvent s p).map Prod.snd

theorem blankAct_batches_sent (s : State) : (blankAct s).sent .commit = allPorts.flatMap (batchSends s) := by
  have hall : (allPorts.flatMap (batchEvent s)).filter (fun m => decide (m.1 = .commit)) =
      allPorts.flatMap (batchEvent s) := List.filter_eq_self.2 fun m hm => by
    obtain ⟨p, -, hp⟩ := List.mem_flatMap.1 hm
    exact decide_eq_true (batchEvent_origin hp)
  rw [blankAct_sent_commit]
  show ((allPorts.flatMap (batchEvent s)).filter fun m => decide (m.1 = .commit)).map Prod.snd = _
  rw [hall, List.map_flatMap]
  rfl

theorem startBlank_commit (s : State) : (startBlank s).commit = (commitBlank s).st.commit := by
  obtain ⟨_, _, _, _, _, _, hst⟩ := blankAct_frame s
  rw [startBlank, Act.settleAndArbitrate, arbitrate_commit, settle_commit, hst]

theorem startBlank_batch (s : State) (p : PortId) : (startBlank s).commit.batches.get p = blankBatch s p := by
  rw [startBlank_commit]
  exact PerPort.get_tab _ p

theorem blankBatch_due (hdue : batchDue s p = true) : blankBatch s p = emptyBatch := by
  cases hfails : batchFailure s p (s.commit.batches.get p).edits with
  | none => rw [blankBatch, verdict_of_applied hdue hfails]
  | some r => rw [blankBatch, verdict_of_rejected hdue hfails]

theorem blankBatch_waiting (hwait : batchDue s p = false) : blankBatch s p = s.commit.batches.get p := by
  rw [blankBatch, verdict_of_waiting hwait]

/-! ### Slots -/

theorem touches_iff (hslot : s.slot l = .held .owned p d) :
    touches s p edits l = true ↔ ∃ e ∈ edits, e.slot? = some l := by
  simp [touches, hslot, Slot.ownedBy]

theorem blankSlot_touched (hslot : s.slot l = .held .owned p d) (happlies : verdict s p = .apply edits)
    (htouched : touches s p edits l = true) : blankSlot s l =
      if (project l d edits).retire then .free else .held .owned p (project l d edits).desc := by
  rw [blankSlot, hslot]
  simp only [happlies, applySlot, if_pos htouched]

theorem blankSlot_untouched (hslot : s.slot l = .held .owned p d)
    (h : ∀ edits, verdict s p = .apply edits → touches s p edits l = false) : blankSlot s l = s.slot l := by
  rw [blankSlot, hslot]
  dsimp only
  split
  · rename_i edits hverdict
    rw [applySlot, if_neg (by rw [h edits hverdict]; decide)]
  · rfl

/-! ### The palette -/

theorem published_iff : published s b = true ↔ ∃ p edits, verdict s p = .apply edits ∧ .publish b ∈ edits := by
  rw [published, List.any_eq_true]
  refine exists_congr fun p => ⟨fun ⟨_, h⟩ => ?_, fun ⟨edits, hverdict, hmem⟩ => ⟨mem_allPorts p, ?_⟩⟩
  · split at h
    · rename_i edits hverdict
      obtain ⟨e, he, hb⟩ := List.any_eq_true.1 h
      refine ⟨edits, hverdict, ?_⟩
      cases e with
      | publish c =>
        obtain rfl := Option.some.inj (of_decide_eq_true hb)
        exact he
      | _ => cases of_decide_eq_true hb
    · cases h
  · rw [hverdict]
    exact List.any_eq_true.2 ⟨_, hmem, decide_eq_true rfl⟩

/-- A palette block whose owner's teardown does not end here. -/
theorem paletteBlank_kept {shown : Fin 64 → Bool} {ended : PortId → Bool}
    (hkept : ∀ o, (s.block b).owner = some o → ended o = false) : (paletteBlank shown ended s).block b =
      if shown b then (s.block b).carryOutClear.publish else (s.block b).carryOutClear := by
  have howner : (if shown b then (s.block b).carryOutClear.publish else (s.block b).carryOutClear).owner =
      (s.block b).owner := by
    unfold PaletteBlock.carryOutClear
    split <;> split <;> rfl
  refine (block_mk_tabulate s _ b).trans ?_
  dsimp only
  rw [howner]
  split
  · rename_i o ho
    rw [hkept o ho]
    rfl
  · rfl

theorem paletteBlank_ended {shown : Fin 64 → Bool} {ended : PortId → Bool} (howner : (s.block b).owner = some p)
    (hended : ended p = true) : (paletteBlank shown ended s).block b = clearedBlock := by
  have howner' : (if shown b then (s.block b).carryOutClear.publish else (s.block b).carryOutClear).owner =
      some p := by
    rw [← howner]
    unfold PaletteBlock.carryOutClear
    split <;> split <;> rfl
  refine (block_mk_tabulate s _ b).trans ?_
  dsimp only
  rw [howner']
  dsimp only
  rw [if_pos hended]

theorem startBlank_block (s : State) (b : Fin 64) :
    (startBlank s).block b = (paletteBlank (published s) (teardownEnds s) s).block b := by
  obtain ⟨_, _, _, _, _, _, hst⟩ := blankAct_frame s
  have hpalette : (startBlank s).palette = (paletteBlank (published s) (teardownEnds s) s).palette := by
    rw [startBlank, Act.settleAndArbitrate, arbitrate_palette, settle_palette, hst]
  exact congrArg (fun v : Vector PaletteBlock 64 => v[b]) hpalette

theorem teardownEnds_eq_false (h : s.sessionState p ≠ .draining) : teardownEnds s p = false := decide_eq_false h

/-! ### The reference counts -/

/-- The reference count of port `p` for handle `h` after the batches are taken. -/
def blankCount (s : State) (e : Extent) (h : Fin 32) (p : PortId) : Nat :=
  e.counts.get p + drawing (startBlank s).commit.slots p h - drawing s.commit.slots p h

theorem recount_afterBatches (s : State) (e : Extent) (h : Fin 32) (p : PortId) :
    recount s.commit.slots (afterBatches s).commit.slots p h (e.counts.get p) = blankCount s e h p := by
  rw [blankCount, startBlank_commit]
  rfl

/-- A record left by a blank start has the counts of the slots then drawn. -/
theorem startBlank_counts {h : Fin 32} {e f : Extent} (he : s.extent h = some e)
    (hf : (startBlank s).extent h = some f) (p : PortId) : f.counts.get p = blankCount s e h p := by
  have hextents : (startBlank s).extents = (extentsBlank s (afterBatches s)).st.extents := by
    rw [startBlank, Act.settleAndArbitrate, arbitrate_extents, settle_extents, blankAct_extents, afterBatches]
  have hkept := (extentsBlank_kept s (afterBatches s)).record h
  rw [extent_of_extents hextents] at hf
  rw [hf] at hkept
  obtain ⟨e', he', -, -, hcounts⟩ := hkept
  rw [recordCounts_extent, show (afterBatches s).extent h = some e from he, Option.map_some, Option.some.injEq] at he'
  rw [hcounts, ← he']
  exact (PerPort.get_tab _ p).trans (recount_afterBatches s e h p)

end Sys2Proof.Machine
end

section
set_option Elab.async false

open Sys2Proof Sys2Proof.Machine

/-- Settles O44: each part by the verdict on the batches. -/
theorem blankStartTakesDueBatches : Obligations.BlankStartTakesDueBatches := by
  unfold Obligations.BlankStartTakesDueBatches
  intro s hready hphase hline due edits applies
  have hdue : ∀ p, due p ↔ batchDue s p = true := fun p => batchDue_iff.symm
  have happlies : ∀ p, applies p ↔ verdict s p = .apply (edits p) := fun p =>
    (and_congr (hdue p) (iff_of_eq rfl)).trans
      ⟨fun ⟨hd, hfits⟩ => verdict_of_applied hd hfits, fun h => ⟨(verdict_apply_iff.1 h).1, (verdict_apply_iff.1 h).2.2⟩⟩
  have hedits : ∀ p l, verdict s p = .apply l → applies p ∧ l = edits p := fun p l h => by
    obtain ⟨-, rfl, -⟩ := verdict_apply_iff.1 h
    exact ⟨(happlies p).2 h, rfl⟩
  have hpublished : ∀ b, published s b = true ↔ ∃ p, applies p ∧ .publish b ∈ edits p := fun b =>
    published_iff.trans (exists_congr fun p =>
      ⟨fun ⟨l, hverdict, hmem⟩ => ⟨(hedits p l hverdict).1, (hedits p l hverdict).2 ▸ hmem⟩,
        fun ⟨happ, hmem⟩ => ⟨edits p, (happlies p).1 happ, hmem⟩⟩)
  refine ⟨startBlank s, exec_blankStart hready hphase hline, rfl, blankAct_ports s,
    ⟨batchSends s, blankAct_batches_sent s, fun p => ⟨fun hwait => ?_, fun happ => ?_, fun r hd hfails => ?_⟩⟩,
    fun p => ⟨fun hd => ?_, fun hwait => ?_⟩, fun l hfree => ?_,
    fun l p d hslot => ⟨fun hnot => ?_, fun happ htouched => ?_⟩, fun b hshown hkept => ?_, fun b hnot hkept => ?_,
    fun h e he f hf p => startBlank_counts he hf p⟩
  · rw [batchSends, batchEvent, verdict_of_waiting (Bool.eq_false_iff.2 (mt (hdue p).2 hwait))]
    rfl
  · rw [batchSends, batchEvent, (happlies p).1 happ]
    rfl
  · rw [batchSends, batchEvent, verdict_of_rejected ((hdue p).1 hd) hfails]
    rfl
  · exact (startBlank_batch s p).trans (blankBatch_due ((hdue p).1 hd))
  · exact (startBlank_batch s p).trans (blankBatch_waiting (Bool.eq_false_iff.2 (mt (hdue p).2 hwait)))
  · refine (startBlank_slot s l).trans ?_
    rw [blankSlot, hfree]
  · refine (startBlank_slot s l).trans (blankSlot_untouched hslot fun k hverdict => Bool.eq_false_iff.2 fun ht => ?_)
    obtain ⟨happ, rfl⟩ := hedits p k hverdict
    exact hnot ⟨happ, (touches_iff hslot).1 ht⟩
  · exact (startBlank_slot s l).trans
      (blankSlot_touched hslot ((happlies p).1 happ) ((touches_iff hslot).2 htouched))
  · have hblock := (startBlank_block s b).trans
      (paletteBlank_kept fun o ho => teardownEnds_eq_false (hkept o ho))
    rw [(hpublished b).2 hshown, if_pos rfl] at hblock
    have hshadow : (s.block b).carryOutClear.shadow = (s.block b).shadow := by
      unfold PaletteBlock.carryOutClear
      split <;> rfl
    have howner : (s.block b).carryOutClear.owner = (s.block b).owner := by
      unfold PaletteBlock.carryOutClear
      split <;> rfl
    rw [hblock]
    exact ⟨hshadow, hshadow, rfl, howner⟩
  · have hblock := (startBlank_block s b).trans
      (paletteBlank_kept fun o ho => teardownEnds_eq_false (hkept o ho))
    rw [Bool.eq_false_iff.2 (mt (hpublished b).1 hnot), if_neg Bool.false_ne_true] at hblock
    exact hblock

end

section
/-! SUPPORT. Grants that end, and what a transfer unit then holds no more (R108, R111, R148). -/

set_option Elab.async false

namespace Sys2Proof.Machine

variable {s : State} {a : Act} {h : Fin 32} {e : Extent} {p q : PortId} {u v w : TransferUnit}

/-! ### What a transfer unit holds -/

/-- Neither the cursor nor the buffer of the unit is in the extent. -/
def TransferUnit.without (u : TransferUnit) (h : Fin 32) : Prop :=
  (∀ c, u.cursor = some c → c.handle ≠ h) ∧ u.buffer.handle? ≠ some h

/-- The unit's cursor and buffer are as they were, or gone. -/
structure HoldsLess (u v : TransferUnit) : Prop where
  cursor : v.cursor = u.cursor ∨ v.cursor = none
  buffer : v.buffer.handle? = u.buffer.handle? ∨ v.buffer.handle? = none

theorem HoldsLess.refl (u : TransferUnit) : HoldsLess u u := ⟨.inl rfl, .inl rfl⟩

theorem HoldsLess.of_eq (huv : v = u) : HoldsLess u v := ⟨.inl (by rw [huv]), .inl (by rw [huv])⟩

theorem HoldsLess.trans (huv : HoldsLess u v) (hvw : HoldsLess v w) : HoldsLess u w where
  cursor := hvw.cursor.elim (fun hc => huv.cursor.imp hc.trans hc.trans) .inr
  buffer := hvw.buffer.elim (fun hb => huv.buffer.imp hb.trans hb.trans) .inr

theorem HoldsLess.without (huv : HoldsLess u v) (hu : u.without h) : v.without h := by
  obtain ⟨hcursor, hbuffer⟩ := hu
  refine ⟨fun c hc => ?_, fun hb => ?_⟩
  · rcases huv.cursor with hsame | hnone
    · exact hcursor c (hsame ▸ hc)
    · rw [hnone] at hc
      cases hc
  · rcases huv.buffer with hsame | hnone
    · exact hbuffer (hsame ▸ hb)
    · rw [hnone] at hb
      cases hb

theorem holdsLess_of_sameWork (huv : sameWork u v) : HoldsLess u v := by
  obtain ⟨hcursor, hbuffer, -⟩ := huv
  exact ⟨.inl hcursor, .inl hbuffer⟩

theorem Option.filter_eq_or {α : Type} (o : Option α) (f : α → Bool) : o.filter f = o ∨ o.filter f = none := by
  cases o with
  | none => exact .inl rfl
  | some x => cases hf : f x <;> simp [Option.filter, hf]

theorem losingAll_holdsLess (u : TransferUnit) (taken : Fin 32 → Bool) (row : Fin 32 → Nat) :
    HoldsLess u (u.losingAll taken row) where
  cursor := Option.filter_eq_or _ _
  buffer := by
    have hb : (u.losingAll taken row).buffer = if u.buffer.handle?.any taken then .empty else u.buffer := rfl
    rw [hb]
    split
    · exact .inr rfl
    · exact .inl rfl

theorem losingAll_without {taken : Fin 32 → Bool} (htaken : taken h = true) (row : Fin 32 → Nat) :
    (u.losingAll taken row).without h := by
  refine ⟨fun c hc hh => ?_, fun hb => ?_⟩
  · obtain ⟨-, hkept⟩ := Option.filter_eq_some_iff.1 hc
    rw [hh, htaken] at hkept
    cases hkept
  · change (if u.buffer.handle?.any taken then ReadAhead.empty else u.buffer).handle? = some h at hb
    split at hb
    · cases hb
    · rename_i hkept
      rw [hb, Option.any_some] at hkept
      exact hkept htaken

theorem Loses.holdsLess {A : Fin 32 → Option Result} (ha : Loses s a q A) :
    HoldsLess (s.transfer.get q) (a.st.transfer.get q) := by
  rw [ha.unit]
  exact losingAll_holdsLess _ _ _

theorem Loses.without {A : Fin 32 → Option Result} (ha : Loses s a q A) (hA : (A h).isSome = true) :
    (a.st.transfer.get q).without h := by
  rw [ha.unit]
  exact losingAll_without hA _

theorem Spares.holdsLess (ha : Spares s a q) : HoldsLess (s.transfer.get q) (a.st.transfer.get q) := .of_eq ha.unit

theorem takenOnly_self (h : Fin 32) (v : Result) : (takenOnly h v h).isSome = true := by simp [takenOnly]

theorem loseExtent_holdsLess (h : Fin 32) (v : Result) (p q : PortId) (s : State) :
    HoldsLess (s.transfer.get q) ((loseExtent h v p s).st.transfer.get q) := by
  by_cases hq : q = p
  · subst hq
    exact (loseExtent_loses h v q s).holdsLess
  · exact (loseExtent_spares h v s hq).holdsLess

/-! ### Grants that end, port by port -/

/-- The record with the grants of some ports replaced. -/
def Extent.regrant (e : Extent) (l : List PortId) (v : PortId → GrantState) : Extent :=
  { e with grants := PerPort.tab fun q => if q ∈ l then v q else e.grants.get q }

theorem regrant_nil (e : Extent) (v : PortId → GrantState) : e.regrant [] v = e := by
  have htab : (PerPort.tab fun q => e.grants.get q) = e.grants := PerPort.ext_get fun q => PerPort.get_tab _ q
  simp [Extent.regrant, htab]

theorem regrant_single (e : Extent) (p : PortId) (v : PortId → GrantState) :
    e.regrant [p] v = { e with grants := e.grants.set p (v p) } := by
  unfold Extent.regrant
  congr 1
  refine PerPort.ext_get fun q => ?_
  rw [PerPort.get_tab]
  by_cases hq : q = p
  · subst hq
    rw [if_pos List.mem_cons_self, PerPort.get_set_same]
  · rw [if_neg (by simpa using hq), PerPort.get_set_other _ _ hq]

theorem regrant_regrant (e : Extent) (l m : List PortId) (v : PortId → GrantState) :
    (e.regrant l v).regrant m v = e.regrant (l ++ m) v := by
  unfold Extent.regrant
  congr 1
  refine PerPort.ext_get fun q => ?_
  simp only [PerPort.get_tab, List.mem_append]
  by_cases hm : q ∈ m <;> by_cases hl : q ∈ l <;> simp [hm, hl]

/-- The action replaces the grants of the ports `l` on the extent, sends those messages for the extents, and leaves every
transfer unit with less; the ports in `lost` hold nothing of the extent. -/
structure Regrants (h : Fin 32) (e : Extent) (l : List PortId) (v : PortId → GrantState) (sends : List Msg)
    (lost : PortId → Prop) (s : State) (a : Act) : Prop where
  extents : a.st.extents = (s.setExtent h (some (e.regrant l v))).extents
  sent : a.sent .extents = sends
  units : ∀ q, HoldsLess (s.transfer.get q) (a.st.transfer.get q)
  gone : ∀ p ∈ l, lost p → (a.st.transfer.get p).without h

variable {l m : List PortId} {x : PortId → GrantState} {lost : PortId → Prop} {sends sends' : List Msg}

theorem Regrants.extent (ha : Regrants h e l x sends lost s a) : a.st.extent h = some (e.regrant l x) := by
  rw [extent_of_extents ha.extents, State.setExtent_extent_same]

theorem Regrants.andThen {f : State → Act} (ha : Regrants h e l x sends lost s a)
    (hf : Regrants h (e.regrant l x) m x sends' lost a.st (f a.st)) :
    Regrants h e (l ++ m) x (sends ++ sends') lost s (a.andThen f) where
  extents := by
    rw [Act.andThen_st, hf.extents, regrant_regrant, setExtent_extents_congr ha.extents, setExtent_setExtent]
  sent := by rw [sent_andThen, ha.sent, hf.sent]
  units q := (ha.units q).trans (hf.units q)
  gone p hp hlost := by
    rcases List.mem_append.1 hp with hl | hm
    · exact (hf.units p).without (ha.gone p hl hlost)
    · exact hf.gone p hm hlost

theorem regrants_quiet (he : s.extent h = some e) : Regrants h e [] x [] lost s (.quiet s) where
  extents := by rw [regrant_nil, setExtent_same he, Act.quiet_st]
  sent := rfl
  units q := .refl _
  gone p hp := nomatch hp

/-- Ports taken one after another, each by what its own grant and the rest of the record say. -/
theorem regrants_forEach {f : PortId → State → Act} {out : PortId → List Msg}
    (hf : ∀ p s e', s.extent h = some e' → (∃ g, e' = { e with grants := g } ∧ g.get p = e.grants.get p) →
      Regrants h e' [p] x (out p) lost s (f p s))
    (l : List PortId) (hl : l.Nodup) {s : State} {e' : Extent} (he : s.extent h = some e')
    (hsame : ∃ g, e' = { e with grants := g } ∧ ∀ p ∈ l, g.get p = e.grants.get p) :
    Regrants h e' l x (l.flatMap out) lost s ((Act.quiet s).forEach l f) := by
  induction l generalizing s e' with
  | nil => exact regrants_quiet he
  | cons p rest ih =>
    obtain ⟨hp, hrest⟩ := List.nodup_cons.1 hl
    obtain ⟨g, rfl, hg⟩ := hsame
    have hone := hf p s _ he ⟨g, rfl, hg p List.mem_cons_self⟩
    rw [Act.quiet_forEach_cons]
    refine hone.andThen (ih hrest hone.extent ⟨_, rfl, fun q hq => ?_⟩)
    have hne : ¬q ∈ [p] := by simpa using ne_of_mem_of_not_mem hq hp
    rw [PerPort.get_tab, if_neg hne]
    exact hg q (List.mem_cons_of_mem p hq)

end Sys2Proof.Machine
end

section
/-! SUPPORT. One extent at a blank start (R67, R108, R109, R111, R176). -/

set_option Elab.async false

namespace Sys2Proof.Machine

variable {s old : State} {h : Fin 32} {before e : Extent} {p : PortId}

/-- A withdrawal ends: the count has fallen to 0. -/
def withdrawalEnds (before e : Extent) (p : PortId) : Bool :=
  decide (e.grants.get p = .withdrawing ∧ before.counts.get p ≠ 0 ∧ e.counts.get p = 0)

/-- What the end of a withdrawal sends. -/
def withdrawalSends (e : Extent) (h : Fin 32) (p : PortId) : List Msg :=
  match e.owner with
  | some o => [Msg.event p (.grantEnded h o), .event o (.grantEnded h p)]
  | none => if e.allocator = p then [] else [.event p (.grantEnded h e.allocator)]

theorem withdrawalEvents_sent (e : Extent) (h : Fin 32) (p : PortId) (s : State) :
    (Act.mk s (withdrawalEvents e h p)).sent .extents = withdrawalSends e h p := by
  unfold withdrawalEvents withdrawalSends Act.sent
  cases e.owner with
  | some o => simp
  | none => by_cases ha : e.allocator = p <;> simp [ha]

theorem endWithdrawal_ends (he : s.extent h = some e) (hends : withdrawalEnds before e p = true) :
    endWithdrawal before h p s =
      (Act.mk (s.setExtent h (some { e with grants := e.grants.set p .none })) (withdrawalEvents e h p)).andThen
        (noticeGrantNone h p) := by
  rw [endWithdrawal, he]
  refine (if_pos (of_decide_eq_true hends)).trans ?_
  rw [setGrant_eq he]

theorem endWithdrawal_idle (he : s.extent h = some e) (hends : withdrawalEnds before e p = false) :
    endWithdrawal before h p s = .quiet s := by
  rw [endWithdrawal, he]
  exact if_neg (of_decide_eq_false hends)

/-- A withdrawal at its port: ended, or as it was. -/
theorem endWithdrawal_regrants (he : s.extent h = some e) :
    Regrants h e [p] (fun q => if withdrawalEnds before e q then .none else e.grants.get q)
      (if withdrawalEnds before e p then withdrawalSends e h p else []) (fun q => withdrawalEnds before e q = true) s
      (endWithdrawal before h p s) := by
  cases hends : withdrawalEnds before e p with
  | true =>
    rw [endWithdrawal_ends he hends]
    refine ⟨?_, ?_, fun q => ?_, fun q hq _ => ?_⟩
    · rw [regrant_single, if_pos hends]
      exact loseExtent_extents h .notGranted p _
    · rw [sent_andThen, withdrawalEvents_sent, noticeGrantNone,
        (loseExtent_onlyAnswers h .notGranted p _).sent (by decide), List.append_nil, if_pos rfl]
    · exact loseExtent_holdsLess h .notGranted p q (s.setExtent h (some { e with grants := e.grants.set p .none }))
    · obtain rfl := List.mem_singleton.1 hq
      exact (loseExtent_loses h .notGranted q _).without (takenOnly_self h _)
  | false =>
    rw [endWithdrawal_idle he hends]
    refine ⟨?_, rfl, fun q => .refl _, fun q hq hlost => ?_⟩
    · rw [regrant_single, if_neg (by rw [hends]; decide), PerPort.set_get_self, setExtent_same he, Act.quiet_st]
    · rw [List.mem_singleton.1 hq, hends] at hlost
      cases hlost

theorem clearGrant_some (he : s.extent h = some e) : clearGrant h p s =
    if e.grants.get p = .none then .quiet s
    else noticeGrantNone h p (s.setExtent h (some { e with grants := e.grants.set p .none })) := by
  rw [clearGrant, he]
  dsimp only
  rw [setGrant_eq he]

/-- The grant to a port whose teardown ends is NONE. -/
theorem clearGrant_regrants (he : s.extent h = some e) :
    Regrants h e [p] (fun _ => .none) [] (fun _ => False) s (clearGrant h p s) := by
  rw [clearGrant_some he]
  split
  · rename_i hnone
    refine ⟨?_, rfl, fun q => .refl _, fun _ _ => False.elim⟩
    rw [regrant_single, ← hnone, PerPort.set_get_self, setExtent_same he, Act.quiet_st]
  · refine ⟨?_, ?_, fun q => ?_, fun _ _ => False.elim⟩
    · rw [regrant_single]
      exact loseExtent_extents h .notGranted p _
    · exact (loseExtent_onlyAnswers h .notGranted p _).sent (by decide)
    · exact loseExtent_holdsLess h .notGranted p q (s.setExtent h (some { e with grants := e.grants.set p .none }))

/-- The grants of an extent after a blank start. -/
def grantsAfter (old : State) (before e : Extent) : PerPort GrantState :=
  PerPort.tab fun p => if withdrawalEnds before e p = true ∨ old.sessionState p = .draining then .none else e.grants.get p

/-- The extent is freed: an orphan that no port draws from. -/
def freedAt (e : Extent) : Prop := e.owner = none ∧ ∀ p, e.counts.get p = 0

/-- What the withdrawals of an extent send, by ascending grantee. -/
def endings (h : Fin 32) (before e : Extent) : List Msg :=
  allPorts.flatMap fun p => if withdrawalEnds before e p then withdrawalSends e h p else []

/-- One extent's part of a blank start, before an orphan is freed. -/
def afterGrants (old : State) (before : Extent) (h : Fin 32) (s : State) : Act :=
  ((Act.quiet s).forEach allPorts (endWithdrawal before h)).forEach (allPorts.filter (teardownEnds old)) (clearGrant h)

/-- What the grants of an extent leave and send at a blank start. -/
structure GrantsBroughtUp (old : State) (before e : Extent) (h : Fin 32) (s : State) (a : Act) : Prop where
  extents : a.st.extents = (s.setExtent h (some { e with grants := grantsAfter old before e })).extents
  sent : a.sent .extents = endings h before e
  units : ∀ q, HoldsLess (s.transfer.get q) (a.st.transfer.get q)
  gone : ∀ p, withdrawalEnds before e p = true → (a.st.transfer.get p).without h

theorem mem_draining (old : State) (p : PortId) :
    p ∈ allPorts.filter (teardownEnds old) ↔ old.sessionState p = .draining := by
  simp [teardownEnds, mem_allPorts]

theorem afterGrants_of (old : State) (he : s.extent h = some e) :
    GrantsBroughtUp old before e h s (afterGrants old before h s) := by
  have hfirst : Regrants h e allPorts (fun q => if withdrawalEnds before e q then .none else e.grants.get q)
      (endings h before e) (fun q => withdrawalEnds before e q = true) s
      ((Act.quiet s).forEach allPorts (endWithdrawal before h)) :=
    regrants_forEach (fun p u e' hu ⟨g, he', hg⟩ => by
      have hone := endWithdrawal_regrants (before := before) (p := p) hu
      have hends : withdrawalEnds before e' p = withdrawalEnds before e p := by
        rw [withdrawalEnds, withdrawalEnds, he', hg]
      have hsends : withdrawalSends e' h p = withdrawalSends e h p := by rw [he']; rfl
      have hgrant : e'.grants.get p = e.grants.get p := by rw [he', hg]
      refine ⟨hone.extents.trans ?_, ?_, hone.units, fun q hq hlost => ?_⟩
      · rw [regrant_single, regrant_single, hends, hgrant]
      · rw [hone.sent, hends, hsends]
      · obtain rfl := List.mem_singleton.1 hq
        exact hone.gone q hq (hends.trans hlost)) allPorts nodup_allPorts he ⟨_, rfl, fun _ _ => rfl⟩
  have hthen := regrants_forEach
    (e := e.regrant allPorts fun q => if withdrawalEnds before e q then .none else e.grants.get q)
    (fun p u e' hu _ => clearGrant_regrants (p := p) hu)
    (allPorts.filter (teardownEnds old)) (nodup_allPorts.filter _) hfirst.extent ⟨_, rfl, fun _ _ => rfl⟩
  rw [afterGrants, Act.forEach_eq_andThen _ (clearGrant h)]
  refine ⟨?_, ?_, fun q => (hfirst.units q).trans (hthen.units q),
    fun p hends => (hthen.units p).without (hfirst.gone p (mem_allPorts p) hends)⟩
  · rw [Act.andThen_st, hthen.extents, setExtent_extents_congr hfirst.extents, setExtent_setExtent]
    have hgrants : (e.regrant allPorts fun q => if withdrawalEnds before e q then .none else e.grants.get q).regrant
        (allPorts.filter (teardownEnds old)) (fun _ => .none) = { e with grants := grantsAfter old before e } := by
      unfold Extent.regrant grantsAfter
      congr 1
      refine PerPort.ext_get fun q => ?_
      simp only [PerPort.get_tab, mem_draining, mem_allPorts, if_true]
      by_cases hd : old.sessionState q = .draining <;> simp [hd]
    rw [hgrants]
  · rw [sent_andThen, hfirst.sent, hthen.sent]
    simp

end Sys2Proof.Machine
end

section
/-! SUPPORT. The extents at a blank start, one after another (R67, R108, R109, R111, R176). -/

set_option Elab.async false

namespace Sys2Proof.Machine

variable {s old : State} {h : Fin 32} {before e : Extent} {p : PortId}

theorem freedAt_iff : (decide (e.owner = none) && e.unreferenced) = true ↔ freedAt e := by
  rw [Bool.and_eq_true, decide_eq_true_eq, unreferenced_iff, freedAt]

/-- The record of an extent after a blank start. -/
def extentAfter (old : State) (before e : Extent) : Option Extent :=
  if decide (e.owner = none) && e.unreferenced then none else some { e with grants := grantsAfter old before e }

/-- What a blank start sends for an extent. -/
def extentSends (old : State) (h : Fin 32) (before e : Extent) : List Msg :=
  endings h before e ++
    if decide (e.owner = none) && e.unreferenced then
      (grantedPorts { e with grants := grantsAfter old before e }).map fun p => Msg.event p (.grantEnded h e.allocator)
    else []

/-- What a blank start makes of one extent. -/
structure ExtentBroughtUp (old : State) (before e : Extent) (h : Fin 32) (s : State) (a : Act) : Prop where
  record : a.st.extent h = extentAfter old before e
  others : ∀ k, k ≠ h → a.st.extent k = s.extent k
  sent : a.sent .extents = extentSends old h before e
  units : ∀ q, HoldsLess (s.transfer.get q) (a.st.transfer.get q)
  gone : ∀ p, withdrawalEnds before e p = true ∨ freedAt e → (a.st.transfer.get p).without h

theorem extentBlank_none (hold : old.extent h = none) : extentBlank old h s = .quiet s := by
  rw [extentBlank, hold]

theorem extentBlank_eq (hold : old.extent h = some before) :
    extentBlank old h s = (afterGrants old before h s).andThen (releaseIfUnreferenced h) := by
  rw [extentBlank, hold]
  rfl

theorem releaseIfUnreferenced_of (he : s.extent h = some e) : releaseIfUnreferenced h s =
    if decide (e.owner = none) && e.unreferenced then releaseExtent h s else .quiet s := by
  rw [releaseIfUnreferenced, he]

theorem extentBlank_of (hold : old.extent h = some before) (he : s.extent h = some e) :
    ExtentBroughtUp old before e h s (extentBlank old h s) := by
  have hgrants := afterGrants_of (before := before) old he
  have hrecord : (afterGrants old before h s).st.extent h = some { e with grants := grantsAfter old before e } := by
    rw [extent_of_extents hgrants.extents, State.setExtent_extent_same]
  have hothers : ∀ k, k ≠ h → (afterGrants old before h s).st.extent k = s.extent k := fun k hk => by
    rw [extent_of_extents hgrants.extents, State.setExtent_extent_other _ _ hk]
  have hrelease : releaseIfUnreferenced h (afterGrants old before h s).st =
      if decide (e.owner = none) && e.unreferenced then releaseExtent h (afterGrants old before h s).st
      else .quiet (afterGrants old before h s).st := (releaseIfUnreferenced_of hrecord :)
  rw [extentBlank_eq hold]
  cases hfreed : decide (e.owner = none) && e.unreferenced with
  | true =>
    rw [hfreed, if_pos rfl] at hrelease
    have hloses := fun q => releaseExtent_loses hrecord q
    refine ⟨?_, fun k hk => ?_, ?_, fun q => ?_, fun p _ => ?_⟩
    · rw [Act.andThen_st, hrelease, releaseExtent_extent hrecord, if_pos rfl, extentAfter, hfreed, if_pos rfl]
    · rw [Act.andThen_st, hrelease, releaseExtent_extent hrecord, if_neg hk, hothers k hk]
    · rw [sent_andThen, hrelease, hgrants.sent, releaseExtent_sent hrecord (by decide), if_pos rfl, extentSends,
        hfreed, if_pos rfl]
    · rw [Act.andThen_st, hrelease]
      exact (hgrants.units q).trans (hloses q).holdsLess
    · rw [Act.andThen_st, hrelease]
      exact (hloses p).without (takenOnly_self h _)
  | false =>
    rw [hfreed, if_neg Bool.false_ne_true] at hrelease
    refine ⟨?_, fun k hk => ?_, ?_, fun q => ?_, fun p hp => ?_⟩
    · rw [Act.andThen_st, hrelease, Act.quiet_st, hrecord, extentAfter, hfreed, if_neg Bool.false_ne_true]
    · rw [Act.andThen_st, hrelease, Act.quiet_st, hothers k hk]
    · rw [sent_andThen, hrelease, hgrants.sent, sent_quiet, extentSends, hfreed, if_neg Bool.false_ne_true]
    · rw [Act.andThen_st, hrelease]
      exact hgrants.units q
    · rw [Act.andThen_st, hrelease]
      refine hgrants.gone p (hp.resolve_right fun hf => ?_)
      rw [freedAt_iff.2 hf] at hfreed
      cases hfreed

/-- What a blank start sends for a handle. -/
def handleSends (old : State) (counted : Fin 32 → Extent → Extent) (h : Fin 32) : List Msg :=
  match old.extent h with
  | some before => extentSends old h before (counted h before)
  | none => []

/-- What a blank start makes of the extents of a list; `counted` is the record with its counts brought up. -/
structure ExtentsBroughtUp (old : State) (counted : Fin 32 → Extent → Extent) (l : List (Fin 32)) (s : State)
    (a : Act) : Prop where
  records : ∀ k, a.st.extent k =
    if k ∈ l then (old.extent k).bind fun before => extentAfter old before (counted k before) else s.extent k
  sent : a.sent .extents = l.flatMap (handleSends old counted)
  units : ∀ q, HoldsLess (s.transfer.get q) (a.st.transfer.get q)
  gone : ∀ h ∈ l, ∀ before, old.extent h = some before → ∀ p,
    withdrawalEnds before (counted h before) p = true ∨ freedAt (counted h before) → (a.st.transfer.get p).without h

theorem extentBlank_list (counted : Fin 32 → Extent → Extent) (l : List (Fin 32)) (hl : l.Nodup) {s : State}
    (hs : ∀ h ∈ l, s.extent h = (old.extent h).map (counted h)) :
    ExtentsBroughtUp old counted l s ((Act.quiet s).forEach l (extentBlank old)) := by
  induction l generalizing s with
  | nil => exact ⟨fun k => rfl, rfl, fun q => .refl _, fun h hh => nomatch hh⟩
  | cons h rest ih =>
    obtain ⟨hh, hrest⟩ := List.nodup_cons.1 hl
    have hne : ∀ k ∈ rest, k ≠ h := fun k hk => ne_of_mem_of_not_mem hk hh
    have hrecord := hs h List.mem_cons_self
    rw [Act.quiet_forEach_cons]
    cases hold : old.extent h with
    | none =>
      have hquiet : extentBlank old h s = .quiet s := extentBlank_none hold
      have hthen := ih hrest fun k hk => hs k (List.mem_cons_of_mem h hk)
      rw [hquiet, Act.quiet_andThen]
      refine ⟨fun k => ?_, ?_, hthen.units, fun k hk before hb => ?_⟩
      · rw [hthen.records k]
        by_cases hk : k = h
        · rw [hk, if_neg hh, if_pos List.mem_cons_self, hrecord, hold]
          rfl
        · simp only [List.mem_cons, hk, false_or]
      · rw [hthen.sent, List.flatMap_cons, handleSends, hold, List.nil_append]
      · refine hthen.gone k ((List.mem_cons.1 hk).resolve_left fun heq => ?_) before hb
        rw [heq, hold] at hb
        cases hb
    | some before =>
      rw [hold, Option.map_some] at hrecord
      have hone := extentBlank_of hold hrecord
      have hthen := ih hrest (s := (extentBlank old h s).st) fun k hk => by
        rw [hone.others k (hne k hk)]
        exact hs k (List.mem_cons_of_mem h hk)
      refine ⟨fun k => ?_, ?_, fun q => (hone.units q).trans (hthen.units q), fun k hk f hf p hp => ?_⟩
      · rw [Act.andThen_st, hthen.records k]
        by_cases hk : k = h
        · rw [hk, if_neg hh, if_pos List.mem_cons_self, hone.record, hold]
          rfl
        · rw [hone.others k hk]
          simp only [List.mem_cons, hk, false_or]
      · rw [sent_andThen, hone.sent, hthen.sent, List.flatMap_cons, handleSends, hold]
      · by_cases hkh : k = h
        · subst hkh
          obtain rfl := Option.some.inj (hold.symm.trans hf)
          exact (hthen.units p).without (hone.gone p hp)
        · exact hthen.gone k ((List.mem_cons.1 hk).resolve_left hkh) f hf p hp

/-! ### The blank start -/

/-- The record with its counts brought up to the slots after a blank start. -/
def counted (s : State) (h : Fin 32) (e : Extent) : Extent := { e with counts := PerPort.tab (blankCount s e h) }

theorem recordCounts_counted (s : State) (h : Fin 32) (e : Extent) :
    ({ e with counts := PerPort.tab fun p => recount s.commit.slots (afterBatches s).commit.slots p h (e.counts.get p) } :
      Extent) = counted s h e := by
  have hcounts : (PerPort.tab fun p => recount s.commit.slots (afterBatches s).commit.slots p h (e.counts.get p)) =
      PerPort.tab (blankCount s e h) := PerPort.ext_get fun p => by
    rw [PerPort.get_tab, PerPort.get_tab, recount_afterBatches]
  rw [hcounts, counted]

theorem recordCounts_afterBatches (s : State) (h : Fin 32) :
    (recordCounts s.commit.slots (afterBatches s)).extent h = (s.extent h).map (counted s h) := by
  have hsame : (afterBatches s).extent h = s.extent h := extent_of_extents rfl h
  rw [recordCounts_extent, hsame]
  exact Option.map_congr fun e _ => recordCounts_counted s h e

theorem extentsBlank_of (s : State) :
    ExtentsBroughtUp s (counted s) (List.finRange 32) (recordCounts s.commit.slots (afterBatches s))
      (extentsBlank s (afterBatches s)) :=
  extentBlank_list (counted s) _ (List.nodup_finRange 32) fun h _ => recordCounts_afterBatches s h

theorem startBlank_extents (s : State) : (startBlank s).extents = (extentsBlank s (afterBatches s)).st.extents := by
  rw [startBlank, Act.settleAndArbitrate, arbitrate_extents, settle_extents, blankAct_extents, afterBatches]

theorem startBlank_extent (s : State) (h : Fin 32) : (startBlank s).extent h =
    (s.extent h).bind fun e => extentAfter s e (counted s h e) := by
  rw [extent_of_extents (startBlank_extents s), (extentsBlank_of s).records h, if_pos (List.mem_finRange h)]

theorem blankAct_extents_sent (s : State) :
    (blankAct s).sent .extents = (List.finRange 32).flatMap (handleSends s (counted s)) := by
  rw [blankAct_sent_extents, (extentsBlank_of s).sent]

theorem blankAct_transfer (s : State) : (blankAct s).st.transfer = (afterExtents s).transfer := by
  obtain ⟨⟨_, _, hadopt⟩, -⟩ := adoptionBlank_frame (beforeAdoption s)
  obtain ⟨⟨_, hwindows⟩, -⟩ := windowsBlank_frame (afterPalette s)
  have hact : (blankAct s).st = (adoptionBlank (beforeAdoption s)).st := by
    rw [blankAct, Act.andThen_st, beforeAdoption]
  rw [hact, hadopt, beforeAdoption_eq, hwindows]
  rfl

/-- A port whose withdrawal ends, and every port once the extent is freed, holds nothing of it. -/
theorem startBlank_gone {s : State} (he : s.extent h = some e)
    (hp : withdrawalEnds e (counted s h e) p = true ∨ freedAt (counted s h e)) :
    ((startBlank s).transfer.get p).without h := by
  have hgone := (extentsBlank_of s).gone h (List.mem_finRange h) e he p hp
  refine (holdsLess_of_sameWork (arbitrate_unit (blankAct s).settle p)).without ?_
  rw [settle_transfer, blankAct_transfer]
  exact hgone

end Sys2Proof.Machine
end

section
/-! SUPPORT. The adoption of a plan at a blank start (R189, R190). -/

set_option Elab.async false

namespace Sys2Proof.Machine

variable {s t : State} {k : Plan} {p : PortId}

/-! ### Whether a port fits a plan -/

/-- The port's usage is within its quotas. -/
def WithinQuotas (s : State) (k : Plan) (p : PortId) : Prop :=
  slotsHeld s p ≤ (k.quotas.get p).layers ∧ extentsOwned s p ≤ (k.quotas.get p).extents ∧
    rowsOwned s p ≤ (k.quotas.get p).rows ∧ blocksOwned s p ≤ (k.quotas.get p).blocks ∧
    windowsOwned s p ≤ (k.quotas.get p).windows

/-- The port's depths are in its band and its windows in the active area. -/
def PlacedIn (s : State) (k : Plan) (p : PortId) : Prop :=
  (∀ l state d, s.slot l = .held state p d → inBand d.z.val (k.quotas.get p).band = true) ∧
    ∀ n w, s.window n = some w → w.owner = p →
      w.settings.x + w.settings.w ≤ k.timing.width ∧ w.settings.y + w.settings.h ≤ k.timing.height

theorem slotInBand_iff {band : Option Band} {r : Slot} :
    slotInBand band p r = true ↔ ∀ state d, r = .held state p d → inBand d.z.val band = true := by
  cases r with
  | free => simp [slotInBand]
  | held state q d => by_cases hq : q = p <;> simp [slotInBand, hq]

theorem windowInside_iff {o : Option Window} {m : Timing} : windowInside m p o = true ↔ ∀ w, o = some w → w.owner = p →
    w.settings.x + w.settings.w ≤ m.width ∧ w.settings.y + w.settings.h ≤ m.height := by
  cases o with
  | none => simp [windowInside]
  | some w => by_cases hw : w.owner = p <;> simp [windowInside, insideActive, hw]

theorem placedIn_iff : PlacedIn s k p ↔
    (((List.finRange 16).all fun l => slotInBand (k.quotas.get p).band p (s.slot l)) &&
      (List.finRange 8).all fun n => windowInside k.timing p (s.window n)) = true := by
  simp only [PlacedIn, Bool.and_eq_true, List.all_eq_true, List.mem_finRange, forall_const, slotInBand_iff,
    windowInside_iff]

theorem withinQuotas_iff : WithinQuotas s k p ↔ ¬((k.quotas.get p).layers < slotsHeld s p ∨
    (k.quotas.get p).extents < extentsOwned s p ∨ (k.quotas.get p).rows < rowsOwned s p ∨
    (k.quotas.get p).blocks < blocksOwned s p ∨ (k.quotas.get p).windows < windowsOwned s p) := by
  simp only [WithinQuotas, not_or, Nat.not_lt]

theorem portUnfit_overQuota (h : ¬WithinQuotas s k p) : portUnfit s k p = some .overQuota :=
  if_pos (not_not.1 fun hnot => h (withinQuotas_iff.2 hnot))

theorem portUnfit_geometry (h : WithinQuotas s k p) (hplaced : ¬PlacedIn s k p) :
    portUnfit s k p = some .geometry :=
  (if_neg (withinQuotas_iff.1 h)).trans (if_neg (mt placedIn_iff.2 hplaced))

theorem portUnfit_fits (h : WithinQuotas s k p) (hplaced : PlacedIn s k p) : portUnfit s k p = none :=
  (if_neg (withinQuotas_iff.1 h)).trans (if_pos (placedIn_iff.1 hplaced))

theorem portUnfit_congr (hcommit : t.commit = s.commit) (hextents : t.extents = s.extents)
    (hpalette : t.palette = s.palette) (hcheck : t.check = s.check) (k : Plan) (p : PortId) :
    portUnfit t k p = portUnfit s k p := by
  cases s
  cases t
  cases hcommit
  cases hextents
  cases hpalette
  cases hcheck
  rfl

/-! ### The first port that does not fit -/

theorem planUnfit_none (h : ∀ p, s.sessionState p ≠ .absent → portUnfit s k p = none) : planUnfit s k = none := by
  refine List.findSome?_eq_none_iff.2 fun p hp => ?_
  rw [h p (by simpa using (List.mem_filter.1 hp).2), Option.map_none]

theorem allPorts_split (p : PortId) :
    ∃ before after, allPorts = before ++ p :: after ∧ ∀ v ∈ before, portNumber v < portNumber p := by
  cases p
  · exact ⟨[], [.h1, .h2, .h3], rfl, by decide⟩
  · exact ⟨[.h0], [.h2, .h3], rfl, by decide⟩
  · exact ⟨[.h0, .h1], [.h3], rfl, by decide⟩
  · exact ⟨[.h0, .h1, .h2], [], rfl, by decide⟩

theorem planUnfit_first {r : PlanFailure} (hp : s.sessionState p ≠ .absent) (hr : portUnfit s k p = some r)
    (hbefore : ∀ v, portNumber v < portNumber p → s.sessionState v ≠ .absent → portUnfit s k v = none) :
    planUnfit s k = some (r, p) := by
  obtain ⟨before, after, hall, hlower⟩ := allPorts_split p
  rw [planUnfit, hall, List.filter_append, List.filter_cons_of_pos (by simpa using hp), List.findSome?_append]
  have hnone : (before.filter fun v => decide (s.sessionState v ≠ .absent)).findSome?
      (fun v => (portUnfit s k v).map fun r => (r, v)) = none := List.findSome?_eq_none_iff.2 fun v hv => by
    obtain ⟨hv, hpresent⟩ := List.mem_filter.1 hv
    rw [hbefore v (hlower v hv) (of_decide_eq_true hpresent), Option.map_none]
  rw [hnone, List.findSome?_cons, hr]
  rfl

/-! ### What the adoption sends -/

theorem adoptionBlank_idle (h : ∀ q, s.session.planState ≠ .adopting q) : adoptionBlank s = .quiet s := by
  unfold adoptionBlank
  split
  · rename_i q hq
    exact absurd hq (h q)
  · rfl

theorem adoptionBlank_sent_adopted {q : Proposal} (hq : s.session.planState = .adopting q)
    (hfits : planUnfit s q.plan = none) : (adoptionBlank s).sent .plan =
      (joinedPorts s).map fun v => Msg.event v (.planAdopted (planDigest q.plan)) := by
  simp only [adoptionBlank, hq, hfits]
  rw [sent_sendAll, sent_quiet, List.nil_append, if_pos rfl]

theorem adoptionBlank_sent_failed {q : Proposal} {f : PlanFailure × PortId}
    (hq : s.session.planState = .adopting q) (hfails : planUnfit s q.plan = some f) : (adoptionBlank s).sent .plan =
      (joinedPorts s).map fun v => Msg.event v (.planFailed f.1 f.2) := by
  simp only [adoptionBlank, hq, hfails]
  rw [sent_sendAll, sent_quiet, List.nil_append, if_pos rfl]

/-- What the adoption sees is what the blank start leaves. -/
theorem portUnfit_startBlank (s : State) (k : Plan) (p : PortId) :
    portUnfit (beforeAdoption s) k p = portUnfit (startBlank s) k p := by
  obtain ⟨⟨_, _, hadopt⟩, -⟩ := adoptionBlank_frame (beforeAdoption s)
  have hact : (blankAct s).st = (adoptionBlank (beforeAdoption s)).st := by
    rw [blankAct, Act.andThen_st, beforeAdoption]
  have hparts := hact.trans hadopt
  refine (portUnfit_congr ?_ ?_ ?_ ?_ k p).symm
  · rw [startBlank, Act.settleAndArbitrate, arbitrate_commit, settle_commit, hparts]
  · rw [startBlank, Act.settleAndArbitrate, arbitrate_extents, settle_extents, hparts]
  · rw [startBlank, Act.settleAndArbitrate, arbitrate_palette, settle_palette, hparts]
  · rw [startBlank, Act.settleAndArbitrate, arbitrate_check, settle_check, hparts]

/-- A proposal being adopted fits every port. -/
theorem adoption_fits {q : Proposal} (hq : s.session.planState = .adopting q)
    (hfits : ∀ p, s.sessionState p ≠ .absent → WithinQuotas (startBlank s) q.plan p ∧ PlacedIn (startBlank s) q.plan p) :
    (startBlank s).session.plan = q.plan ∧ (blankAct s).sent .plan =
      (allPorts.filter s.joined).map fun v => Msg.event v (.planAdopted (planDigest q.plan)) := by
  have hsession := beforeAdoption_session s
  have hnone : planUnfit (beforeAdoption s) q.plan = none := planUnfit_none fun p hp => by
    obtain ⟨hwithin, hplaced⟩ := hfits p (by rwa [State.sessionState, hsession] at hp)
    rw [portUnfit_startBlank, portUnfit_fits hwithin hplaced]
  constructor
  · rcases startBlank_plan s with ⟨hnot, -⟩ | ⟨q', hq', -, hplan⟩
    · exact absurd hq (hnot q)
    · obtain rfl := PlanState.adopting.inj (hq.symm.trans hq')
      rw [hplan, hnone]
      rfl
  · rw [blankAct_sent_plan, adoptionBlank_sent_adopted (by rw [hsession, hq]) hnone, joinedPorts_of_session hsession]
    rfl

/-- A proposal being adopted does not fit port `p`, the first of those it does not fit. -/
theorem adoption_fails {q : Proposal} (hq : s.session.planState = .adopting q) (hp : s.sessionState p ≠ .absent)
    (hnot : ¬(WithinQuotas (startBlank s) q.plan p ∧ PlacedIn (startBlank s) q.plan p))
    (hbefore : ∀ v, portNumber v < portNumber p → s.sessionState v ≠ .absent →
      WithinQuotas (startBlank s) q.plan v ∧ PlacedIn (startBlank s) q.plan v) :
    (startBlank s).session.plan = s.session.plan ∧ ∃ reason,
      (WithinQuotas (startBlank s) q.plan p → reason = .geometry) ∧
      (¬WithinQuotas (startBlank s) q.plan p → reason = .overQuota) ∧
      (blankAct s).sent .plan = (allPorts.filter s.joined).map fun v => Msg.event v (.planFailed reason p) := by
  have hsession := beforeAdoption_session s
  obtain ⟨reason, hreason, hgeometry, hquota⟩ : ∃ reason, portUnfit (startBlank s) q.plan p = some reason ∧
      (WithinQuotas (startBlank s) q.plan p → reason = .geometry) ∧
      (¬WithinQuotas (startBlank s) q.plan p → reason = .overQuota) := by
    by_cases hwithin : WithinQuotas (startBlank s) q.plan p
    · exact ⟨.geometry, portUnfit_geometry hwithin fun h => hnot ⟨hwithin, h⟩, fun _ => rfl,
        fun h => absurd hwithin h⟩
    · exact ⟨.overQuota, portUnfit_overQuota hwithin, fun h => absurd h hwithin, fun _ => rfl⟩
  have hfirst : planUnfit (beforeAdoption s) q.plan = some (reason, p) := by
    refine planUnfit_first (by rwa [State.sessionState, hsession]) (by rw [portUnfit_startBlank, hreason])
      fun v hv hpresent => ?_
    obtain ⟨hwithin, hplaced⟩ := hbefore v hv (by rwa [State.sessionState, hsession] at hpresent)
    rw [portUnfit_startBlank, portUnfit_fits hwithin hplaced]
  refine ⟨?_, reason, hgeometry, hquota, ?_⟩
  · rcases startBlank_plan s with ⟨hnone, -⟩ | ⟨q', hq', -, hplan⟩
    · exact absurd hq (hnone q)
    · obtain rfl := PlanState.adopting.inj (hq.symm.trans hq')
      rw [hplan, hfirst]
      rfl
  · rw [blankAct_sent_plan, adoptionBlank_sent_failed (by rw [hsession, hq]) hfirst, joinedPorts_of_session hsession]
    rfl

end Sys2Proof.Machine
end

section
/-! PROOF. What ends at a blank start (R31, R67, R108 to R111, R176, R189, R190). -/

set_option Elab.async false

namespace Sys2Proof.Machine

variable {s : State} {h : Fin 32} {e : Extent} {p : PortId}

/-- What a blank start leaves of the position, the store and the refresh state. -/
structure FrameKept (s t : State) : Prop where
  phase : t.scan.phase = .blank
  line : t.scan.lineNo = 0
  pixel : t.scan.pixelTime = 0
  counter : t.scan.frameCounter = s.scan.frameCounter
  timing : t.scan.timing = s.scan.timing
  store : t.store = s.store
  refresh : t.refresh = s.refresh

theorem startBlank_frame (s : State) : FrameKept s (startBlank s) := by
  obtain ⟨_, _, _, _, _, hsettled⟩ := settleAndArbitrate_frame (blankAct s)
  obtain ⟨_, _, _, _, _, _, hst⟩ := blankAct_frame s
  rw [startBlank, hsettled, hst]
  exact ⟨rfl, rfl, rfl, rfl, rfl, rfl, rfl⟩

theorem withdrawalEnds_counted (s : State) (h : Fin 32) (e : Extent) (p : PortId) :
    withdrawalEnds e (counted s h e) p =
      decide (e.grants.get p = .withdrawing ∧ e.counts.get p ≠ 0 ∧ blankCount s e h p = 0) := by
  rw [withdrawalEnds, counted, PerPort.get_tab]

theorem freedAt_counted : freedAt (counted s h e) ↔ e.owner = none ∧ ∀ p, blankCount s e h p = 0 := by
  simp only [freedAt, counted, PerPort.get_tab]

theorem extentAfter_kept (hnot : ¬freedAt (counted s h e)) : extentAfter s e (counted s h e) =
    some { counted s h e with grants := grantsAfter s e (counted s h e) } :=
  if_neg (mt freedAt_iff.1 hnot)

theorem extentAfter_freed (hfreed : freedAt (counted s h e)) : extentAfter s e (counted s h e) = none :=
  if_pos (freedAt_iff.2 hfreed)

theorem startBlank_record_extent (he : s.extent h = some e) :
    (startBlank s).extent h = extentAfter s e (counted s h e) := by
  rw [startBlank_extent, he, Option.bind_some]

theorem extentSends_kept (hnot : ¬freedAt (counted s h e)) :
    extentSends s h e (counted s h e) = endings h e (counted s h e) := by
  rw [extentSends, if_neg (mt freedAt_iff.1 hnot), List.append_nil]

theorem extentSends_freed (hfreed : freedAt (counted s h e)) :
    extentSends s h e (counted s h e) = endings h e (counted s h e) ++
      (allPorts.filter fun p => decide ((grantsAfter s e (counted s h e)).get p = .granted)).map fun p =>
        Msg.event p (.grantEnded h e.allocator) := by
  rw [extentSends, if_pos (freedAt_iff.2 hfreed)]
  rfl

/-- The grants of a port whose teardown ends are NONE. -/
theorem startBlank_grant_none (hp : s.sessionState p = .draining) (hf : (startBlank s).extent h = some e) :
    e.grants.get p = .none := by
  rw [startBlank_extent] at hf
  obtain ⟨before, -, hafter⟩ := Option.bind_eq_some_iff.1 hf
  rw [extentAfter] at hafter
  split at hafter
  · cases hafter
  · obtain rfl := Option.some.inj hafter
    rw [grantsAfter, PerPort.get_tab, if_pos (.inr hp)]

theorem blankSlot_retiring {l : Fin 16} {d : Descriptor} (hslot : s.slot l = .held .retiring p d) :
    blankSlot s l = if s.sessionState p = .draining then .free else s.slot l := by
  rw [blankSlot, hslot]
  dsimp only
  simp only [teardownEnds, decide_eq_true_eq]

theorem sessionsBlank_sent (old s : State) : (sessionsBlank old s).sent .session =
    (allPorts.filter fun p => decide (old.sessionState p = .draining)).map Msg.sessionEnd := by
  have hmap : sessionsBlank old s =
      Act.mk s (((allPorts.filter (teardownEnds old)).map Msg.sessionEnd).map fun m => (Origin.session, m)) := by
    rw [List.map_map]
    rfl
  rw [hmap, sent_of_map]
  rfl

end Sys2Proof.Machine
end

section
set_option Elab.async false

open Sys2Proof Sys2Proof.Machine

/-- Settles O45: sessions and slots of the DRAINING ports, the adoption by the first port that does not fit, and each
extent by its withdrawals and whether it is freed. -/
theorem blankStartEndsTeardownsAndAdopts : Obligations.BlankStartEndsTeardownsAndAdopts := by
  unfold Obligations.BlankStartEndsTeardownsAndAdopts
  intro s hready hphase hline
  obtain ⟨hblank, hlineNo, hpixel, hcounter, htiming, hstore, hrefresh⟩ := startBlank_frame s
  refine ⟨startBlank s, exec_blankStart hready hphase hline, rfl, blankAct_ports s, hblank, hlineNo, hpixel, hcounter,
    htiming, hstore, hrefresh, fun p hp => ?_, fun p hp => ⟨?_, fun l d hslot => ?_, fun b howner => ?_,
      fun h e he => startBlank_grant_none hp he⟩, fun l p d hslot hp => ?_, ?_, ?_, fun h hnone => ?_,
    handleSends s (counted s), blankAct_extents_sent s, fun h hnone => ?_, fun h e he => ?_⟩
  · rw [startBlank_record, if_neg hp]
  · rw [startBlank_record, if_pos hp]
    rfl
  · rw [startBlank_slot, blankSlot_retiring hslot, if_pos hp]
  · exact (startBlank_block s b).trans (paletteBlank_ended howner (decide_eq_true hp))
  · rw [startBlank_slot, blankSlot_retiring hslot, if_neg hp]
  · split
    · rename_i q hq
      rcases startBlank_plan s with ⟨hnot, -⟩ | ⟨_, -, hsteady, -⟩
      · exact absurd hq (hnot q)
      · refine ⟨hsteady, ?_⟩
        intro within placed fits
        refine ⟨fun hall => adoption_fits hq hall, fun p hnot hbefore => ?_⟩
        obtain ⟨hp, hunfit⟩ := Classical.not_imp.1 hnot
        exact adoption_fails hq hp hunfit hbefore
    · rename_i hnot
      rcases startBlank_plan s with ⟨hidle, hplan, hstate⟩ | ⟨q, hq, -⟩
      · refine ⟨hstate, hplan, ?_⟩
        rw [blankAct_sent_plan, adoptionBlank_idle fun q => by rw [beforeAdoption_session]; exact hidle q]
        exact sent_quiet _ _
      · exact absurd hq (hnot q)
  · rw [blankAct_sent_session]
    exact sessionsBlank_sent s _
  · rw [startBlank_extent, hnone, Option.bind_none]
  · rw [handleSends, hnone]
  · intro count ends grant freed endings'
    have hends : ∀ p, withdrawalEnds e (counted s h e) p = ends p := withdrawalEnds_counted s h e
    have hfreed : freedAt (counted s h e) ↔ freed := freedAt_counted
    have hendings : endings h e (counted s h e) = endings' := List.flatMap_congr fun p _ => by
      rw [hends p]
      rfl
    have hgrants : grantsAfter s e (counted s h e) = PerPort.tab grant := PerPort.ext_get fun p => by
      rw [grantsAfter, PerPort.get_tab, PerPort.get_tab, hends p]
      rfl
    have hsends : handleSends s (counted s) h = extentSends s h e (counted s h e) := by rw [handleSends, he]
    refine ⟨fun hnot => ⟨?_, ?_⟩, fun hf => ⟨?_, ?_⟩, fun p hp => ?_⟩
    · rw [hsends, extentSends_kept (mt hfreed.1 hnot), hendings]
    · rw [startBlank_record_extent he, extentAfter_kept (mt hfreed.1 hnot), hgrants]
      rfl
    · rw [startBlank_record_extent he, extentAfter_freed (hfreed.2 hf)]
    · rw [hsends, extentSends_freed (hfreed.2 hf), hendings, hgrants]
      simp only [PerPort.get_tab]
    · exact startBlank_gone he (hp.imp (hends p).trans hfreed.2)

end

section
/-! SUPPORT. Events of one origin arrive in the order in which they were sent (R199, log 5). -/

set_option Elab.async false

namespace Sys2Proof.Machine

variable {s u : State} {p : PortId}

theorem arrange_oneOrigin {x : Origin} {out : List (Origin × Msg)} (hout : ∀ m ∈ out, m.1 = x) (order : List Origin) :
    arrange order out = out.map Prod.snd := by
  induction order with
  | nil => rfl
  | cons o rest ih =>
    by_cases ho : o = x
    · have hall : out.filter (fun m => decide (m.1 = o)) = out :=
        List.filter_eq_self.2 fun m hm => decide_eq_true ((hout m hm).trans ho.symm)
      have hnone : out.filter (fun m => decide (m.1 ≠ o)) = [] := List.filter_eq_nil_iff.2 fun m hm => by
        simp [(hout m hm).trans ho.symm]
      rw [arrange, hall, hnone, arrange_nil, List.append_nil]
    · have hnone : out.filter (fun m => decide (m.1 = o)) = [] := List.filter_eq_nil_iff.2 fun m hm => by
        simp [hout m hm, Ne.symm ho]
      have hall : out.filter (fun m => decide (m.1 ≠ o)) = out :=
        List.filter_eq_self.2 fun m hm => decide_eq_true fun heq => ho (heq.symm.trans (hout m hm))
      rw [arrange, hnone, hall, ih, List.map_nil, List.nil_append]

theorem deliver_event_session (s : State) (q : PortId) (e : Event) : (s.deliver (.event q e)).session = s.session := by
  unfold State.deliver
  dsimp only
  split <;> rfl

theorem deliver_event_port (s : State) (q p : PortId) (e : Event) : (s.deliver (.event q e)).ports.get p =
    if q = p ∧ (s.session.records.get p).takesEvents = true then (s.ports.get p).takeEvent e else s.ports.get p := by
  by_cases hq : q = p
  · subst hq
    by_cases htakes : (s.session.records.get q).takesEvents = true <;> simp [State.deliver, htakes]
  · by_cases htakes : (s.session.records.get q).takesEvents = true <;>
      simp [State.deliver, htakes, hq, PerPort.get_set_other _ _ (Ne.symm hq)]

/-! ### The UNDERRUN events -/

/-- The UNDERRUN event of a slot, to its owner. -/
def underrunSends (s : State) (frame : Half) (l : Fin 16) : List Msg :=
  (slotOwner s l).toList.map fun p => Msg.event p (.underrun l frame)

/-- What port `p` takes of the UNDERRUN event of a slot. -/
def takeUnderrun (s : State) (p : PortId) (frame : Half) (told : Fin 16 → Bool) (c : PortController) (l : Fin 16) :
    PortController :=
  match s.slot l with
  | .held _ owner _ =>
    if told l && decide (owner = p) && (s.session.records.get p).takesEvents then c.takeEvent (.underrun l frame) else c
  | .free => c

theorem takeUnderruns_eq (s : State) (p : PortId) (frame : Half) (told : Fin 16 → Bool) :
    takeUnderruns s p frame told = (List.finRange 16).foldl (takeUnderrun s p frame told) (s.ports.get p) := rfl

theorem deliver_underrun
    (htakes : (u.session.records.get p).takesEvents = (s.session.records.get p).takesEvents) (frame : Half)
    (told : Fin 16 → Bool) (l : Fin 16) :
    ((if told l then underrunSends s frame l else []).foldl State.deliver u).session = u.session ∧
      ((if told l then underrunSends s frame l else []).foldl State.deliver u).ports.get p =
        takeUnderrun s p frame told (u.ports.get p) l := by
  unfold underrunSends slotOwner takeUnderrun
  cases htold : told l with
  | false =>
    refine ⟨rfl, ?_⟩
    cases s.slot l <;> rfl
  | true =>
    cases hslot : s.slot l with
    | free => exact ⟨rfl, rfl⟩
    | held state q d =>
      refine ⟨deliver_event_session u q _, (deliver_event_port u q p _).trans ?_⟩
      rw [htakes]
      refine if_congr ?_ rfl rfl
      simp

/-- The UNDERRUN events of slots, delivered in the order of the slots. -/
theorem deliver_underruns (frame : Half) (told : Fin 16 → Bool) (L : List (Fin 16))
    (htakes : (u.session.records.get p).takesEvents = (s.session.records.get p).takesEvents) :
    ((L.flatMap fun l => if told l then underrunSends s frame l else []).foldl State.deliver u).ports.get p =
      L.foldl (takeUnderrun s p frame told) (u.ports.get p) := by
  induction L generalizing u with
  | nil => rfl
  | cons l rest ih =>
    obtain ⟨hsession, hport⟩ := deliver_underrun htakes frame told l
    rw [List.flatMap_cons, List.foldl_append, ih (by rw [hsession]; exact htakes), hport, List.foldl_cons]

/-- An action that sends the UNDERRUN events of slots alone, settled. -/
theorem settle_underruns {a : Act} {frame : Half} {told : Fin 16 → Bool}
    (hout : a.out = ((List.finRange 16).flatMap fun l => if told l then underrunSends s frame l else []).map
      fun m => (Origin.scan, m)) (hports : a.st.ports = s.ports)
    (htakes : (a.st.session.records.get p).takesEvents = (s.session.records.get p).takesEvents) :
    a.settle.ports.get p = takeUnderruns s p frame told := by
  have horigin : ∀ m ∈ a.out, m.1 = Origin.scan := fun m hm => by
    rw [hout] at hm
    obtain ⟨v, -, rfl⟩ := List.mem_map.1 hm
    rfl
  have hmsgs : a.out.map Prod.snd = (List.finRange 16).flatMap fun l => if told l then underrunSends s frame l else [] := by
    rw [hout, List.map_map]
    exact List.map_id _
  rw [Act.settle, arrange_oneOrigin horigin, hmsgs, takeUnderruns_eq, ← hports]
  exact deliver_underruns frame told _ htakes

end Sys2Proof.Machine
end

section
/-! SUPPORT. The underruns of a line start (R39, R92). -/

set_option Elab.async false

namespace Sys2Proof.Machine

variable {s t : State} {line : Nat} {k : Fin 16} {n : Fin 8} {q r : Fin 16 → Bool}

/-! ### Windows tainted -/

/-- A window after the underrun notices of the slots `q` for a line. -/
def Window.tainted (w : Window) (s : State) (line : Nat) (q : Fin 16 → Bool) : Window :=
  { w with taint := w.taint || decide (w.state = .running) && underrunMeets s line q w.settings }

theorem underrunMeets_congr (hrecords : t.scan.records = s.scan.records) (line : Nat) (q : Fin 16 → Bool)
    (w : WinSettings) : underrunMeets t line q w = underrunMeets s line q w := by
  rw [underrunMeets, hrecords]
  rfl

theorem underrunMeets_or (s : State) (line : Nat) (q r : Fin 16 → Bool) (w : WinSettings) :
    underrunMeets s line (fun l => q l || r l) w = (underrunMeets s line q w || underrunMeets s line r w) := by
  have hany : ∀ f : Fin 16 → Bool, ((List.finRange 16).any fun l => (q l || r l) && f l) =
      (((List.finRange 16).any fun l => q l && f l) || (List.finRange 16).any fun l => r l && f l) := fun f => by
    rw [Bool.eq_iff_iff]
    simp only [Bool.or_eq_true, List.any_eq_true, Bool.and_eq_true, or_and_right, and_or_left, exists_or]
  simp only [underrunMeets, hany, Bool.and_or_distrib_left]

theorem underrunMeets_none (s : State) (line : Nat) (w : WinSettings) :
    underrunMeets s line (fun _ => false) w = false := by
  simp [underrunMeets]

theorem underrunMeets_one (s : State) (line : Nat) (k : Fin 16) (w : WinSettings) :
    underrunMeets s line (fun l => decide (l = k)) w = (decide (w.y ≤ line) && decide (line < w.y + w.h) &&
      (s.scan.records[k].bind LineRecord.span).any fun x => decide (w.x ≤ x.last) && decide (x.first < w.x + w.w)) := by
  have hany : ∀ f : Fin 16 → Bool, ((List.finRange 16).any fun l => decide (l = k) && f l) = f k := fun f => by
    rw [Bool.eq_iff_iff]
    simp
  rw [underrunMeets, hany]
  cases s.scan.records[k] with
  | none => rfl
  | some record =>
    obtain ⟨live, span⟩ := record
    cases span <;> rfl

theorem tainted_tainted (w : Window) (s : State) (line : Nat) (q r : Fin 16 → Bool) :
    (w.tainted s line q).tainted s line r = w.tainted s line fun l => q l || r l := by
  simp only [Window.tainted, underrunMeets_or, Bool.and_or_distrib_left, Bool.or_assoc]
  rfl

theorem tainted_none (w : Window) (s : State) (line : Nat) : w.tainted s line (fun _ => false) = w := by
  rw [Window.tainted, underrunMeets_none, Bool.and_false, Bool.or_false]

theorem taintUnderrun_eq (w : Window) (x : Span) (hspan : s.scan.records[k].bind LineRecord.span = some x) :
    taintUnderrun line x w = w.tainted s line fun l => decide (l = k) := by
  rw [Window.tainted, underrunMeets_one, hspan, Option.any_some, taintUnderrun]
  by_cases hmeets : w.state = .running ∧ w.settings.y ≤ line ∧ line < w.settings.y + w.settings.h ∧
      w.settings.x ≤ x.last ∧ x.first < w.settings.x + w.settings.w
  · obtain ⟨hstate, hy, hh, hx, hw⟩ := hmeets
    simp [hstate, hy, hh, hx, hw]
  · rw [if_neg hmeets]
    have hnot : (decide (w.state = .running) && (decide (w.settings.y ≤ line) &&
        decide (line < w.settings.y + w.settings.h) &&
          (decide (w.settings.x ≤ x.last) && decide (x.first < w.settings.x + w.settings.w)))) = false := by
      rw [Bool.eq_false_iff]
      simpa [and_assoc] using hmeets
    rw [hnot, Bool.or_false]

theorem noticeSlot_window (line : Nat) (k : Fin 16) (s : State) (n : Fin 8) :
    (noticeSlot line k s).window n =
      (s.window n).map fun w => w.tainted s line fun l => decide (l = k) := by
  unfold noticeSlot
  split
  · rename_i x hspan
    refine (tabulate_get _ n).trans (Option.map_congr fun w _ => taintUnderrun_eq w x hspan)
  · rename_i hspan
    have hsame : ∀ w : Window, (w.tainted s line fun l => decide (l = k)) = w := fun w => by
      rw [Window.tainted, underrunMeets_one, hspan, Option.any_none, Bool.and_false, Bool.and_false, Bool.or_false]
    simp only [hsame, Option.map_id']

/-! ### One slot after another -/

/-- What the underruns of a list of slots leave and send. -/
structure Underran (line : Nat) (L : List (Fin 16)) (s : State) (a : Act) : Prop where
  windows : ∀ n, a.st.window n = (s.window n).map fun w => w.tainted s line fun l => decide (l ∈ L)
  underruns : ∀ l : Fin 16, a.st.scan.underruns[l] = (s.scan.underruns[l] || decide (l ∈ L))
  out : a.out = L.flatMap fun l =>
    (if s.scan.underruns[l] then [] else underrunSends s s.scan.frameCounter l).map fun m => (Origin.scan, m)

theorem underrunSlot_window (line : Nat) (k : Fin 16) (s : State) (n : Fin 8) :
    (underrunSlot line k s).st.window n = (noticeSlot line k s).window n := by
  unfold underrunSlot
  dsimp only
  split <;> rfl

theorem underrunSlot_underruns (line : Nat) (k : Fin 16) (s : State) (l : Fin 16) :
    (underrunSlot line k s).st.scan.underruns[l] = (s.scan.underruns[l] || decide (l = k)) := by
  obtain ⟨_, hnotice⟩ := noticeSlot_frame line k s
  have hset : (underrunSlot line k s).st.scan.underruns = s.scan.underruns.set k.val true k.isLt := by
    unfold underrunSlot
    dsimp only
    rw [hnotice]
    split <;> rfl
  rw [hset]
  show (s.scan.underruns.set k.val true k.isLt)[l.val] = _
  by_cases hl : l = k
  · subst hl
    simp
  · rw [Vector.getElem_set_ne (h := fun heq => hl (Fin.ext heq.symm))]
    simp [hl]

theorem underrunSlot_out (line : Nat) (k : Fin 16) (s : State) : (underrunSlot line k s).out =
    (if s.scan.underruns[k] then [] else underrunSends s s.scan.frameCounter k).map fun m => (Origin.scan, m) := by
  obtain ⟨_, hnotice⟩ := noticeSlot_frame line k s
  unfold underrunSlot
  dsimp only
  rw [hnotice]
  split
  · rfl
  · rw [Act.sendAll_out, Act.quiet_out, List.nil_append, underrunSends, List.map_map]
    rfl

theorem underruns_of (line : Nat) (L : List (Fin 16)) (hL : L.Nodup) (s : State) :
    Underran line L s ((Act.quiet s).forEach L fun l => underrunSlot line l) := by
  induction L generalizing s with
  | nil =>
    refine ⟨fun n => ?_, fun l => ?_, rfl⟩
    · simp only [List.not_mem_nil, decide_false, tainted_none, Option.map_id']
      rfl
    · simp only [List.not_mem_nil, decide_false, Bool.or_false]
      rfl
  | cons k rest ih =>
    obtain ⟨hk, hrest⟩ := List.nodup_cons.1 hL
    obtain ⟨⟨windows, underruns, hframe⟩, -⟩ := underrunSlot_frame line k s
    obtain ⟨hwindows, hunderruns, hout⟩ := ih hrest (underrunSlot line k s).st
    have hrecords : (underrunSlot line k s).st.scan.records = s.scan.records := by rw [hframe]
    rw [Act.quiet_forEach_cons]
    refine ⟨fun n => ?_, fun l => ?_, ?_⟩
    · rw [Act.andThen_st, hwindows n, underrunSlot_window, noticeSlot_window, Option.map_map]
      refine Option.map_congr fun w _ => ?_
      have hmeets : ∀ v : Window, v.tainted (underrunSlot line k s).st line (fun l => decide (l ∈ rest)) =
          v.tainted s line fun l => decide (l ∈ rest) := fun v => by
        rw [Window.tainted, Window.tainted, underrunMeets_congr hrecords]
      rw [Function.comp_apply, hmeets, tainted_tainted]
      simp only [List.mem_cons, Bool.decide_or]
    · rw [Act.andThen_st, hunderruns l, underrunSlot_underruns]
      simp only [List.mem_cons, Bool.decide_or, Bool.or_assoc]
    · rw [Act.andThen_out, hout, underrunSlot_out, List.flatMap_cons]
      refine congrArg (_ ++ ·) (List.flatMap_congr fun l hl => ?_)
      have hne : l ≠ k := ne_of_mem_of_not_mem hl hk
      have hsends : underrunSends (underrunSlot line k s).st (underrunSlot line k s).st.scan.frameCounter l =
          underrunSends s s.scan.frameCounter l := by
        rw [hframe]
        rfl
      rw [hsends, underrunSlot_underruns]
      simp only [hne, decide_false, Bool.or_false]

end Sys2Proof.Machine
end

section
/-! SUPPORT. A line start said once: what it composes, feeds, gives up and draws up (R34 to R39, R87, R92). -/

set_option Elab.async false

namespace Sys2Proof.Machine

variable {s : State} {line : Nat} {l : Fin 16} {n : Fin 8}

/-! ### The late fetches -/

theorem late_eq (fetch : List FetchPart) (l : Fin 16) : late fetch l = fetchIncomplete fetch l := rfl

theorem nodup_underrunSlots (s : State) : (underrunSlots s).Nodup := (List.nodup_finRange 16).filter _

theorem mem_underrunSlots : l ∈ underrunSlots s ↔ late s.scan.fetch l = true := by
  rw [underrunSlots, List.mem_filter, late_eq]
  simp only [List.mem_finRange, true_and]

theorem underrunSlots_contains (s : State) :
    (fun l : Fin 16 => (underrunSlots s).contains l) = late s.scan.fetch := by
  funext l
  rw [Bool.eq_iff_iff, List.contains_iff_mem, mem_underrunSlots]

theorem decide_mem_underrunSlots (s : State) :
    (fun l : Fin 16 => decide (l ∈ underrunSlots s)) = late s.scan.fetch := by
  funext l
  rw [Bool.eq_iff_iff, decide_eq_true_eq, mem_underrunSlots]

theorem finished_iff (x : Part) : x.finished = true ↔ ∃ bytes, x.status = .done bytes := by
  unfold Part.finished
  cases x.status <;> simp

theorem late_iff (fetch : List FetchPart) (l : Fin 16) :
    late fetch l = true ↔ ∃ f ∈ fetch, f.slot = l ∧ ∀ bytes, f.part.status ≠ .done bytes := by
  have hnot : ∀ x : Part, (!x.finished) = true ↔ ∀ bytes, x.status ≠ .done bytes := fun x => by
    rw [Bool.not_eq_true', ← Bool.not_eq_true, finished_iff, not_exists]
  simp only [late, List.any_eq_true, Bool.and_eq_true, decide_eq_true_eq, hnot]

/-- An access in flight is of a late fetch. -/
theorem late_of_granted {fetch : List FetchPart} {f : FetchPart} {b : BankId} (hf : f ∈ fetch)
    (hgranted : f.part.grantedAt b = true) : late fetch f.slot = true := by
  obtain ⟨hstatus, -⟩ := (grantedAt_iff f.part b).1 hgranted
  exact (late_iff fetch f.slot).2 ⟨f, hf, rfl, fun bytes hdone => by rw [hstatus] at hdone; cases hdone⟩

/-! ### What is composed and fed -/

/-- The pixels of a line: each marked layer and each whose fetch is late in fallback. -/
def linePixels (s : State) : List Color :=
  composeLine s.palette s.session.plan.background
    (lineLayers s.scan.records s.scan.fetch fun l => s.scan.marks[l] || late s.scan.fetch l) s.scan.timing.width

theorem drawnLayers_eq (s : State) (failed : Fin 16 → Bool) : drawnLayers s failed =
    lineLayers s.scan.records s.scan.fetch fun l => s.scan.marks[l] || failed l := by
  unfold drawnLayers lineLayers fetchedBytes partsBytes
  refine congrArg (fun f => (List.finRange 16).filterMap f) (funext fun l => ?_)
  cases s.scan.records[l] with
  | none => rfl
  | some r => simp only [Option.bind_some, List.flatMap_map]

/-- A window's register after the pixels of a line, when it is RUNNING and its rows include the line. -/
def Window.fed (w : Window) (line : Nat) (pixels : List Color) : Window :=
  { w with
    register := if w.state = .running ∧ w.settings.y ≤ line ∧ line < w.settings.y + w.settings.h then
      signLine w.settings pixels w.register else w.register }

theorem feedWindow_eq (line : Nat) (pixels : List Color) (w : Window) : feedWindow line pixels w = w.fed line pixels := by
  unfold feedWindow Window.fed
  split <;> rfl

/-- A window after a line start. -/
def Window.afterLine (w : Window) (s : State) (line : Nat) : Window :=
  (w.tainted s line (late s.scan.fetch)).fed line (linePixels s)

/-! ### What is given up and drawn up -/

theorem giveUp_eq (k : Bank) : k.giveUp .scan = { k with
    inFlight := k.inFlight.map fun a => if a.requester = .scan then { a with wanted := false } else a } := rfl

theorem inFlightFor_late (fetch : List FetchPart) (b : BankId) :
    inFlightFor fetch (late fetch) b = fetch.any fun f => f.part.grantedAt b :=
  any_congr_mem fun f hf => by
    cases hgranted : f.part.grantedAt b with
    | false => rw [Bool.and_false]
    | true => rw [Bool.and_true, late_of_granted hf hgranted]

theorem banks_dropFetch_late (s : State) :
    (PerBank.tab fun b => if inFlightFor s.scan.fetch (late s.scan.fetch) b then (s.banks.get b).giveUp .scan
      else s.banks.get b) = banksAfterLine s := by
  simp only [inFlightFor_late, giveUp_eq]
  rfl

/-- The line records for the line after this one. -/
def nextRecords (s : State) (line : Nat) : Vector (Option LineRecord) 16 :=
  if line + 1 < s.scan.timing.height then tabulate fun l => lineRecord s.scan.timing.width (line + 1) (s.slot l)
  else Vector.replicate 16 none

/-- The fetch list for the line after this one. -/
def nextFetch (s : State) (line : Nat) : List FetchPart :=
  if line + 1 < s.scan.timing.height then fetchList s (nextRecords s line) s.scan.marks else []

theorem fetchNextLine_eq (line : Nat) (s : State) : fetchNextLine line s =
    { s with scan := { s.scan with records := nextRecords s line, fetch := nextFetch s line } } := by
  unfold fetchNextLine nextFetch nextRecords
  split <;> rfl

/-- The state after a line start, before its events arrive. -/
def afterLine (line : Nat) (s : State) (underruns : Vector Bool 16) : State :=
  { s with
    scan := { s.scan with
      line := linePixels s, records := nextRecords s line, fetch := nextFetch s line, underruns := underruns }
    check := { s.check with windows := tabulate fun n => (s.window n).map fun w => w.afterLine s line }
    banks := banksAfterLine s }

/-- The state with the pixels of a line composed and fed. -/
def fedWith (line : Nat) (pixels : List Color) (s : State) : State :=
  { s with
    scan := { s.scan with line := pixels }
    check := { s.check with windows := tabulate fun n => (s.window n).map (feedWindow line pixels) } }

theorem composeAndFeed_eq (line : Nat) (failed : Fin 16 → Bool) (s : State) : composeAndFeed line failed s =
    fedWith line
      (composeLine s.palette s.session.plan.background (drawnLayers s failed) s.scan.timing.width) s := rfl

theorem runLine_st (line : Nat) (s : State) : ∃ underruns : Vector Bool 16,
    (runLine line s).st = afterLine line s underruns ∧
      ∀ l : Fin 16, underruns[l] = (s.scan.underruns[l] || late s.scan.fetch l) := by
  obtain ⟨⟨windows, underruns, hst⟩, -⟩ := underruns_frame line (underrunSlots s) s
  obtain ⟨hwindows, hunderruns, -⟩ := underruns_of line (underrunSlots s) (nodup_underrunSlots s) s
  rw [decide_mem_underrunSlots] at hwindows
  refine ⟨underruns, ?_, fun l => ?_⟩
  · have hfed : (fun n => (((Act.quiet s).forEach (underrunSlots s) fun l => underrunSlot line l).st.window n).map
        (feedWindow line (linePixels s))) = fun n => (s.window n).map fun w => w.afterLine s line := by
      funext n
      rw [hwindows n, Option.map_map]
      exact Option.map_congr fun w _ => feedWindow_eq line _ _
    have hpixels : composeLine s.palette s.session.plan.background (drawnLayers s (late s.scan.fetch))
        s.scan.timing.width = linePixels s := by rw [drawnLayers_eq, linePixels]
    rw [hst] at hfed
    simp only [runLine, Act.change_st, underrunSlots_contains]
    rw [hst, composeAndFeed_eq, fetchNextLine_eq, afterLine, ← hfed, ← hpixels, ← banks_dropFetch_late]
    rfl
  · have hone := hunderruns l
    rw [hst, congrFun (decide_mem_underrunSlots s) l] at hone
    exact hone

/-! ### What a line start sends -/

theorem flatMap_filter_ite {α β : Type} (L : List α) (q : α → Bool) (f : α → List β) :
    (L.filter q).flatMap f = L.flatMap fun x => if q x then f x else [] := by
  induction L with
  | nil => rfl
  | cons x rest ih => cases hq : q x <;> simp [hq, ih]

theorem runLine_out (line : Nat) (s : State) : (runLine line s).out =
    ((List.finRange 16).flatMap fun l => if late s.scan.fetch l && !s.scan.underruns[l] then
      underrunSends s s.scan.frameCounter l else []).map fun m => (Origin.scan, m) := by
  have hout := (underruns_of line (underrunSlots s) (nodup_underrunSlots s) s).out
  rw [show (runLine line s).out = ((Act.quiet s).forEach (underrunSlots s) fun l => underrunSlot line l).out from rfl,
    hout, underrunSlots, flatMap_filter_ite, List.map_flatMap]
  refine List.flatMap_congr fun l _ => ?_
  rw [late_eq]
  cases fetchIncomplete s.scan.fetch l <;> cases s.scan.underruns[l] <;> rfl

end Sys2Proof.Machine
end

section
/-! PROOF. The underruns of a line start (R39, R92). -/

set_option Elab.async false

namespace Sys2Proof.Machine

variable {s : State} {p : PortId} {n : Fin 8}

/-- The state in which a line start takes the next line. -/
def onNextLine (s : State) : State := { s with scan := s.scan.toLine .active (s.scan.lineNo + 1) }

/-- The state after a line start, before the idle banks decide. -/
def lineStarted (s : State) : State := (runLine (s.scan.lineNo + 1) (onNextLine s)).settle

theorem exec_lineStart (hready : ready s = true) (hphase : s.scan.phase = .active)
    (hline : s.scan.lineNo + 1 < s.scan.timing.height) : exec .lineStart s = .next (arbitrate (lineStarted s)) := by
  have hdue : lineStartDue s = true := by simp [lineStartDue, hphase, hline]
  refine congrArg Host.Outcome.next ((whenRunning_ready _ hready).trans ?_)
  rw [if_pos hdue]
  rfl

theorem lineStarted_eq (s : State) : ∃ underruns : Vector Bool 16,
    lineStarted s = { afterLine (s.scan.lineNo + 1) (onNextLine s) underruns with
      ports := (lineStarted s).ports, arrivals := s.arrivals.tail } ∧
    ∀ l : Fin 16, underruns[l] = (s.scan.underruns[l] || late s.scan.fetch l) := by
  obtain ⟨underruns, hst, hunderruns⟩ := runLine_st (s.scan.lineNo + 1) (onNextLine s)
  refine ⟨underruns, ?_, hunderruns⟩
  refine (settle_eq_of_no_end (runLine_frame (s.scan.lineNo + 1) (onNextLine s)).2).trans ?_
  rw [hst]
  rfl

theorem lineStarted_port (s : State) (p : PortId) : (lineStarted s).ports.get p =
    takeUnderruns s p s.scan.frameCounter fun l => late s.scan.fetch l && !s.scan.underruns[l] := by
  obtain ⟨underruns, hst, -⟩ := runLine_st (s.scan.lineNo + 1) (onNextLine s)
  refine settle_underruns (runLine_out (s.scan.lineNo + 1) (onNextLine s)) ?_ ?_
  · rw [hst]
    rfl
  · rw [hst]
    rfl

theorem lineStarted_window (s : State) (n : Fin 8) : (lineStarted s).window n =
    (s.window n).map fun w => w.afterLine (onNextLine s) (s.scan.lineNo + 1) := by
  obtain ⟨underruns, heq, -⟩ := lineStarted_eq s
  rw [heq]
  exact tabulate_get _ n

theorem arbitrate_underruns (s : State) : (arbitrate s).scan.underruns = s.scan.underruns := by
  obtain ⟨_, _, _, h, -⟩ := arbitrate_frame s
  rw [h]

end Sys2Proof.Machine
end

section
set_option Elab.async false

open Sys2Proof Sys2Proof.Machine

/-- Settles O40: the line start slot by slot, its events in the order of the slots. -/
theorem underrunIsReportedAndTaints : Obligations.UnderrunIsReportedAndTaints := by
  unfold Obligations.UnderrunIsReportedAndTaints
  intro s hready hphase hline fails
  obtain ⟨underruns, heq, hunderruns⟩ := lineStarted_eq s
  refine ⟨_, exec_lineStart hready hphase hline, late_iff s.scan.fetch, fun l => ?_, fun p => ?_, fun n w hw => ?_⟩
  · rw [arbitrate_underruns, heq]
    exact hunderruns l
  · rw [arbitrate_ports]
    exact lineStarted_port s p
  · refine ⟨w.afterLine (onNextLine s) (s.scan.lineNo + 1), ?_, rfl⟩
    rw [arbitrate_window, lineStarted_window, hw, Option.map_some]

end

section
/-! SUPPORT. The fetch list of a line (R35, R36). -/

set_option Elab.async false

namespace Sys2Proof.Machine

variable {s : State} {records : Vector (Option LineRecord) 16} {marks : Vector Bool 16} {l : Fin 16}

/-! ### The slots in ascending z -/

/-- The depth by which the slots of a fetch are ordered. -/
def slotDepth (records : Vector (Option LineRecord) 16) (l : Fin 16) : Nat :=
  (records[l].map fun r => r.live.z.val).getD 0

/-- The slots of the list stand in ascending z. -/
abbrev AscendingSlots (records : Vector (Option LineRecord) 16) (L : List (Fin 16)) : Prop :=
  L.Pairwise fun a b => slotDepth records a ≤ slotDepth records b

theorem insertSlot_cons (records : Vector (Option LineRecord) 16) (l a : Fin 16) (rest : List (Fin 16)) :
    insertSlot records l (a :: rest) =
      if slotDepth records l < slotDepth records a then l :: a :: rest else a :: insertSlot records l rest := rfl

theorem insertSlot_perm (records : Vector (Option LineRecord) 16) (l : Fin 16) (L : List (Fin 16)) :
    (insertSlot records l L).Perm (l :: L) := by
  induction L with
  | nil => exact .refl _
  | cons a rest ih =>
    rw [insertSlot_cons]
    split
    · exact .refl _
    · exact (ih.cons a).trans (.swap l a rest)

theorem insertSlot_ascending {L : List (Fin 16)} (h : AscendingSlots records L) :
    AscendingSlots records (insertSlot records l L) := by
  induction L with
  | nil => exact List.pairwise_singleton _ l
  | cons a rest ih =>
    obtain ⟨ha, hrest⟩ := List.pairwise_cons.1 h
    rw [insertSlot_cons]
    split
    next hlt =>
      refine List.pairwise_cons.2 ⟨fun b hb => ?_, h⟩
      rcases List.mem_cons.1 hb with rfl | hb
      · exact hlt.le
      · exact hlt.le.trans (ha b hb)
    next hge =>
      refine List.pairwise_cons.2 ⟨fun b hb => ?_, ih hrest⟩
      rcases List.mem_cons.1 ((insertSlot_perm records l rest).mem_iff.1 hb) with rfl | hb
      · exact not_lt.1 hge
      · exact ha b hb

/-- Slots inserted one by one: all are kept, in ascending z. -/
theorem foldl_insertSlot (L : List (Fin 16)) : ∀ acc : List (Fin 16), AscendingSlots records acc →
    (L.foldl (fun acc l => insertSlot records l acc) acc).Perm (L ++ acc) ∧
      AscendingSlots records (L.foldl (fun acc l => insertSlot records l acc) acc) := by
  induction L with
  | nil => exact fun acc h => ⟨.refl _, h⟩
  | cons l rest ih =>
    intro acc h
    obtain ⟨hperm, hascending⟩ := ih (insertSlot records l acc) (insertSlot_ascending h)
    exact ⟨hperm.trans (((insertSlot_perm records l acc).append_left rest).trans List.perm_middle), hascending⟩

/-- A slot has its layer's bytes fetched: it is drawn, of a source format, and not in fallback. -/
def fetches (records : Vector (Option LineRecord) 16) (marks : Vector Bool 16) (l : Fin 16) : Bool :=
  match records[l] with
  | some r => r.span.isSome && decide (r.live.format ≠ .fill) && !marks[l]
  | none => false

theorem fetchSlots_perm (records : Vector (Option LineRecord) 16) (marks : Vector Bool 16) :
    (fetchSlots records marks).Perm ((List.finRange 16).filter (fetches records marks)) := by
  have hperm := (foldl_insertSlot (records := records) ((List.finRange 16).filter (fetches records marks)) [] .nil).1
  rw [List.append_nil] at hperm
  exact hperm

theorem mem_fetchSlots : l ∈ fetchSlots records marks ↔ fetches records marks l = true := by
  rw [(fetchSlots_perm records marks).mem_iff, List.mem_filter]
  exact and_iff_right (List.mem_finRange l)

theorem nodup_fetchSlots (records : Vector (Option LineRecord) 16) (marks : Vector Bool 16) :
    (fetchSlots records marks).Nodup :=
  (fetchSlots_perm records marks).nodup_iff.2 ((List.nodup_finRange 16).filter _)

theorem fetchSlots_ascending (records : Vector (Option LineRecord) 16) (marks : Vector Bool 16) :
    AscendingSlots records (fetchSlots records marks) :=
  (foldl_insertSlot ((List.finRange 16).filter (fetches records marks)) [] .nil).2

/-! ### The accesses of the slots -/

/-- The entries of a fetch list for one slot. -/
def slotFetch (s : State) (records : Vector (Option LineRecord) 16) (l : Fin 16) : List FetchPart :=
  match records[l] with
  | some r =>
    match r.span with
    | some k => (layerFetch s r.live k).map fun t => { slot := l, part := t }
    | none => []
  | none => []

theorem fetchList_eq (s : State) (records : Vector (Option LineRecord) 16) (marks : Vector Bool 16) :
    fetchList s records marks = (fetchSlots records marks).flatMap (slotFetch s records) := rfl

theorem slot_of_mem_slotFetch {f : FetchPart} (hf : f ∈ slotFetch s records l) : f.slot = l := by
  unfold slotFetch at hf
  split at hf
  · split at hf
    · obtain ⟨t, -, rfl⟩ := List.mem_map.1 hf
      rfl
    · cases hf
  · cases hf

theorem filter_slotFetch (s : State) (records : Vector (Option LineRecord) 16) (k l : Fin 16) :
    (slotFetch s records k).filter (fun f => decide (f.slot = l)) = if k = l then slotFetch s records k else [] := by
  by_cases hk : k = l
  · rw [if_pos hk]
    exact List.filter_eq_self.2 fun f hf => decide_eq_true ((slot_of_mem_slotFetch hf).trans hk)
  · rw [if_neg hk]
    refine List.filter_eq_nil_iff.2 fun f hf => ?_
    simp [slot_of_mem_slotFetch hf, hk]

theorem flatMap_one {α : Type} (L : List (Fin 16)) (hL : L.Nodup) (l : Fin 16) (f : Fin 16 → List α) :
    (L.flatMap fun k => if k = l then f k else []) = if l ∈ L then f l else [] := by
  induction L with
  | nil => rfl
  | cons k rest ih =>
    obtain ⟨hk, hrest⟩ := List.nodup_cons.1 hL
    rw [List.flatMap_cons, ih hrest]
    by_cases hkl : k = l
    · subst hkl
      simp [hk]
    · simp [hkl, Ne.symm hkl]

/-- The entries of one slot in a fetch list. -/
theorem fetchList_slot (s : State) (records : Vector (Option LineRecord) 16) (marks : Vector Bool 16) (l : Fin 16) :
    (fetchList s records marks).filter (fun f => decide (f.slot = l)) =
      if fetches records marks l then slotFetch s records l else [] := by
  rw [fetchList_eq, List.filter_flatMap]
  simp only [filter_slotFetch]
  rw [flatMap_one _ (nodup_fetchSlots records marks)]
  exact if_congr mem_fetchSlots rfl rfl

theorem fetchList_drawn {d : Descriptor} {k : Span} (hrecord : records[l] = some { live := d, span := some k }) :
    (fetchList s records marks).filter (fun f => decide (f.slot = l)) =
      if d.format = .fill ∨ marks[l] = true then []
      else (layerFetch s d k).map fun part => { slot := l, part } := by
  have hfetches : fetches records marks l = !(decide (d.format = .fill) || marks[l]) := by
    simp [fetches, hrecord]
  rw [fetchList_slot, hfetches, slotFetch, hrecord]
  by_cases hfill : d.format = .fill
  · simp [hfill]
  · cases marks[l] <;> simp [hfill]

theorem fetchList_notDrawn (h : ∀ d k, records[l] ≠ some { live := d, span := some k }) :
    (fetchList s records marks).filter (fun f => decide (f.slot = l)) = [] := by
  have hfetches : fetches records marks l = false := by
    unfold fetches
    split
    · rename_i r hr
      obtain ⟨live, span⟩ := r
      cases span with
      | none => rfl
      | some k => exact absurd hr (h live k)
    · rfl
  rw [fetchList_slot, hfetches, if_neg Bool.false_ne_true]

theorem fetchList_ascending (s : State) (records : Vector (Option LineRecord) 16) (marks : Vector Bool 16) :
    (fetchList s records marks).Pairwise fun f g => ∀ r r', records[f.slot] = some r → records[g.slot] = some r' →
      r.live.z ≤ r'.live.z := by
  rw [fetchList_eq, List.pairwise_flatMap]
  refine ⟨fun l _ => List.pairwise_of_forall_mem_list fun f hf g hg r r' hr hr' => ?_,
    (fetchSlots_ascending records marks).imp fun {a b} hle f hf g hg r r' hr hr' => ?_⟩
  · simp only [slot_of_mem_slotFetch hf] at hr
    simp only [slot_of_mem_slotFetch hg] at hr'
    rw [Option.some.inj (hr.symm.trans hr')]
  · simp only [slot_of_mem_slotFetch hf] at hr
    simp only [slot_of_mem_slotFetch hg] at hr'
    simpa [slotDepth, hr, hr'] using hle

theorem bitsPerPixel_eq (f : Format) : bitsPerPixel f = pixelBits f := by cases f <;> rfl

theorem pixelBits_pos {f : Format} (h : f ≠ .fill) : 0 < pixelBits f := by
  cases f with
  | fill => exact absurd rfl h
  | _ => decide

/-- The accesses of a layer's fetch: from the first to the last byte that holds a bit of a drawn column. -/
theorem layerFetch_eq {d : Descriptor} {k : Span} {o : Source} {e : Extent} (hformat : d.format ≠ .fill)
    (ho : d.source = some o) (he : s.extent o.handle = some e) :
    layerFetch s d k = readParts e.firstRow
      (o.offset + k.row * o.stride + k.column k.first * pixelBits d.format / 8)
      (((k.column k.last + 1) * pixelBits d.format + 7) / 8 - 1 + 1 - k.column k.first * pixelBits d.format / 8) := by
  have hpos : 0 < (k.column k.last + 1) * pixelBits d.format := Nat.mul_pos (Nat.succ_pos _) (pixelBits_pos hformat)
  have hpast : ((k.column k.last + 1) * pixelBits d.format + 7) / 8 - 1 + 1 =
      ((k.column k.last + 1) * pixelBits d.format + 7) / 8 := Nat.sub_add_cancel (by omega)
  rw [hpast]
  simp only [layerFetch, ho, he, bitsPerPixel_eq]

end Sys2Proof.Machine
end

section
/-! PROOF. Lines fetched and composed (R34 to R38). -/

set_option Elab.async false

namespace Sys2Proof.Machine

variable {s : State} {b : BankId} {a : Access} {lo len : Nat}

theorem toLine_same {c : ScanEngine} {phase : Phase} (hphase : c.phase = phase) (line : Nat) :
    c.toLine phase line = { c with lineNo := line, pixelTime := 0 } := by
  rw [← hphase]
  rfl

theorem lineRecord_slot (width line : Nat) (r : Slot) : lineRecord width line r = match r with
    | .free => none
    | .held _ _ d => some { live := d, span := if d.visible then layerSpan d width line else none } := by
  cases r <;> rfl

theorem recordsOf_tabulate (s : State) (width line : Nat) :
    recordsOf s width line (tabulate fun l => lineRecord width line (s.slot l)) := fun l =>
  (tabulate_get _ l).trans (lineRecord_slot width line (s.slot l))

theorem exec_lineZeroFetch (hready : ready s = true) (hphase : s.scan.phase = .blank)
    (hline : s.scan.lineNo + 1 < s.scan.timing.vblank) : exec .lineZeroFetch s = .next (lineZeroFetch s) := by
  have hdue : lineZeroDue s = true := by simp [lineZeroDue, hphase, hline]
  exact congrArg Host.Outcome.next ((whenRunning_ready _ hready).trans (if_pos hdue))

theorem lineZeroFetch_eq (hphase : s.scan.phase = .blank) : lineZeroFetch s = arbitrate
    { s with scan := { s.scan with
      lineNo := s.scan.timing.vblank - 1, pixelTime := 0
      records := tabulate fun l => lineRecord s.session.plan.timing.width 0 (s.slot l)
      fetch := fetchList s (tabulate fun l => lineRecord s.session.plan.timing.width 0 (s.slot l))
        (Vector.replicate 16 false) } } := by
  rw [lineZeroFetch, toLine_same hphase]
  rfl

theorem nextRecords_onNextLine (hline : s.scan.lineNo + 1 + 1 < s.scan.timing.height) :
    nextRecords (onNextLine s) (s.scan.lineNo + 1) =
      tabulate fun l => lineRecord s.scan.timing.width (s.scan.lineNo + 1 + 1) (s.slot l) := if_pos hline

theorem nextFetch_onNextLine (hline : s.scan.lineNo + 1 + 1 < s.scan.timing.height) :
    nextFetch (onNextLine s) (s.scan.lineNo + 1) =
      fetchList s (nextRecords (onNextLine s) (s.scan.lineNo + 1)) s.scan.marks := if_pos hline

theorem takeUnderruns_none (s : State) (p : PortId) (frame : Half) :
    takeUnderruns s p frame (fun _ => false) = s.ports.get p := by
  rw [takeUnderruns_eq]
  induction List.finRange 16 with
  | nil => rfl
  | cons l rest ih =>
    have hone : takeUnderrun s p frame (fun _ => false) (s.ports.get p) l = s.ports.get p := by
      unfold takeUnderrun
      cases s.slot l <;> rfl
    rw [List.foldl_cons, hone, ih]

theorem lineStarted_ports_of_none (hnone : ∀ l, late s.scan.fetch l = false) : (lineStarted s).ports = s.ports := by
  refine PerPort.ext_get fun p => ?_
  rw [lineStarted_port]
  simp only [hnone, Bool.false_and]
  exact takeUnderruns_none s p _

theorem afterLine_taint_of_none (w : Window) (line : Nat) (hnone : ∀ l, late s.scan.fetch l = false) :
    (w.afterLine s line).taint = w.taint := by
  have hlate : late s.scan.fetch = fun _ => false := funext hnone
  rw [Window.afterLine, hlate, tainted_none]
  rfl

theorem completeAccess_scan (hrequester : a.requester = .scan) (hkind : a.kind = .read lo len)
    (hwanted : a.wanted = true) : (completeAccess b a s).settle = { s with
      scan := { s.scan with fetch := scanCompleted b (s.store.bytesAt a.row lo len) s.scan.fetch }
      refresh := s.refresh.set b ((s.refresh.get b).complete (bankRowOf a.row))
      banks := s.banks.set b { s.banks.get b with inFlight := none }, arrivals := s.arrivals.tail } := by
  have hbytes : handedOver s.store a = s.store.bytesAt a.row lo len := by rw [handedOver, hkind]
  have hact : completeAccess b a s = .quiet { atCompletion b a s with
      scan := { (atCompletion b a s).scan with
        fetch := scanCompleted b (s.store.bytesAt a.row lo len) (atCompletion b a s).scan.fetch } } := by
    rw [completeAccess_eq, handOver, if_pos hwanted, hrequester, hbytes]
  rw [hact, settle_quiet, atCompletion_read hkind]

theorem completeAccess_unwanted_read (hkind : a.kind = .read lo len) (hunwanted : a.wanted = false) :
    (completeAccess b a s).settle = { s with
      refresh := s.refresh.set b ((s.refresh.get b).complete (bankRowOf a.row))
      banks := s.banks.set b { s.banks.get b with inFlight := none }, arrivals := s.arrivals.tail } := by
  have hrefresh := completion_refresh b a s
  rw [Act.settleAndArbitrate, arbitrate_refresh] at hrefresh
  rw [unwanted_read hkind hunwanted, hrefresh]

end Sys2Proof.Machine
end

section
set_option Elab.async false

open Sys2Proof Sys2Proof.Machine

/-- Settles O39: the fetch for line 0, a line start, the fetch list, and the completion of a scan access. -/
theorem linesAreFetchedAndComposed : Obligations.LinesAreFetchedAndComposed := by
  unfold Obligations.LinesAreFetchedAndComposed
  refine ⟨fun s hready => ⟨fun hphase hline => ?_, fun hphase hline => ?_⟩, fun s records marks => ⟨fun l => ?_,
    fetchList_ascending s records marks⟩, fun s d k o e hformat ho he => layerFetch_eq hformat ho he,
    fun s b a lo len hready hflight hrequester hkind => ?_⟩
  · refine ⟨_, recordsOf_tabulate s _ 0, ?_⟩
    rw [exec_lineZeroFetch hready hphase hline, lineZeroFetch_eq hphase]
  · intro line fails pixels
    obtain ⟨underruns, heq, hunderruns⟩ := lineStarted_eq s
    refine ⟨lineStarted s, exec_lineStart hready hphase hline, fun n => ⟨fun hnone => ?_, fun w hw => ?_⟩,
      fun hnext => ⟨?_, ?_⟩, fun hlast => ?_, fun hnone => ⟨lineStarted_ports_of_none hnone, ?_⟩, ?_⟩
    · rw [lineStarted_window, hnone, Option.map_none]
    · refine ⟨w.afterLine (onNextLine s) line, ?_, afterLine_taint_of_none (s := onNextLine s) w line, rfl⟩
      rw [lineStarted_window, hw, Option.map_some]
    · rw [heq]
      show recordsOf s s.scan.timing.width (line + 1) (nextRecords (onNextLine s) line)
      rw [nextRecords_onNextLine hnext]
      exact recordsOf_tabulate s _ _
    · rw [heq]
      exact nextFetch_onNextLine hnext
    · rw [heq]
      exact if_neg (Nat.not_lt.2 hlast.ge)
    · rw [heq]
      refine Vector.ext fun i hi => ?_
      have hone := hunderruns ⟨i, hi⟩
      have hin : late s.scan.fetch ⟨i, hi⟩ = false := hnone ⟨i, hi⟩
      rw [hin, Bool.or_false] at hone
      exact hone
    · rw [heq]
      unfold afterLine onNextLine
      rw [toLine_same hphase]
      rfl
  · split
    · rename_i d k hrecord
      exact fetchList_drawn hrecord
    · rename_i hnot
      exact fetchList_notDrawn hnot
  · refine ⟨(s.refresh.get b).complete (bankRowOf a.row), ?_⟩
    intro completed
    refine ⟨fun hwanted before f after hfetch hstatus hrow hbefore => ?_, fun hunwanted => ?_⟩
    · rw [exec_accessCompletion hready hflight, Act.settleAndArbitrate, completeAccess_scan hrequester hkind hwanted,
        hfetch, scanCompleted_at ((grantedAt_iff f.part b).2 ⟨hstatus, hrow⟩) fun g hg => by
          rw [← Bool.not_eq_true, grantedAt_iff]
          exact hbefore g hg]
    · rw [exec_accessCompletion hready hflight, Act.settleAndArbitrate, completeAccess_unwanted_read hkind hunwanted]

end

section
/-! PROOF. A frame start: the marks, line 0, and what runs down (R33, R37, R39, R85, R92, R173, R186). -/

set_option Elab.async false

namespace Sys2Proof.Machine

variable {s : State} {l : Fin 16} {n : Fin 8} {w : Window} {p : PortId}

/-! ### The frame fallback marks -/

/-- The frame fallback mark of a slot at a frame start. -/
def markOf (s : State) (l : Fin 16) : Bool := frameMark s (s.slot l)

theorem markOf_iff (s : State) (l : Fin 16) : markOf s l = true ↔
    ∃ state p d o e, s.slot l = .held state p d ∧ d.source = some o ∧ d.format ≠ .fill ∧
      s.extent o.handle = some e ∧ e.state ≠ .ready := by
  unfold markOf frameMark
  constructor
  · intro h
    split at h
    · cases h
    · rename_i state p d hslot
      split at h
      · cases h
      · rename_i o ho
        obtain ⟨hformat, he⟩ := Bool.and_eq_true_iff.1 h
        split at he
        · rename_i e hextent
          exact ⟨state, p, d, o, e, hslot, ho, of_decide_eq_true hformat, hextent, of_decide_eq_true he⟩
        · cases he
  · rintro ⟨state, p, d, o, e, hslot, ho, hformat, he, hready⟩
    simp [hslot, ho, hformat, he, hready]

theorem beforeLineZero_mark (s : State) (l : Fin 16) : (beforeLineZero s).scan.marks[l] = markOf s l :=
  tabulate_get _ l

/-- The fetches of the slots without a mark. -/
def unmarkedFetch (s : State) : List FetchPart := s.scan.fetch.filter fun f => !markOf s f.slot

theorem beforeLineZero_fetch (s : State) : (beforeLineZero s).scan.fetch = unmarkedFetch s :=
  List.filter_congr fun f _ => congrArg (!·) (tabulate_get _ f.slot)

theorem late_unmarkedFetch (s : State) (l : Fin 16) :
    late (unmarkedFetch s) l = (late s.scan.fetch l && !markOf s l) := by
  rw [Bool.eq_iff_iff, Bool.and_eq_true, late_iff, late_iff]
  constructor
  · rintro ⟨f, hf, rfl, hdone⟩
    obtain ⟨hf, hmark⟩ := List.mem_filter.1 hf
    exact ⟨⟨f, hf, rfl, hdone⟩, hmark⟩
  · rintro ⟨⟨f, hf, rfl, hdone⟩, hmark⟩
    exact ⟨f, List.mem_filter.2 ⟨hf, hmark⟩, rfl, hdone⟩

/-- The slots whose fetch for line 0 is late. -/
def lateAtFrame (s : State) (l : Fin 16) : Bool := late s.scan.fetch l && !markOf s l

theorem late_beforeLineZero (s : State) : late (beforeLineZero s).scan.fetch = lateAtFrame s := by
  rw [beforeLineZero_fetch]
  exact funext (late_unmarkedFetch s)

/-! ### The accesses given up -/

theorem giveUp_giveUp (k : Bank) (r : Requester) : (k.giveUp r).giveUp r = k.giveUp r := by
  unfold Bank.giveUp
  cases k.inFlight with
  | none => rfl
  | some a => by_cases ha : a.requester = r <;> simp [ha]

theorem banksAfterLine_get (s : State) (b : BankId) : (banksAfterLine s).get b =
    if s.scan.fetch.any (fun f => f.part.grantedAt b) then (s.banks.get b).giveUp .scan else s.banks.get b :=
  PerBank.get_tab _ b

theorem beforeLineZero_bank (s : State) (b : BankId) : (beforeLineZero s).banks.get b =
    if s.scan.fetch.any (fun f => markOf s f.slot && f.part.grantedAt b) then (s.banks.get b).giveUp .scan
    else s.banks.get b := by
  have hmarked : inFlightFor s.scan.fetch (fun l => (beginWindows (beginFrame s)).scan.marks[l]) b =
      s.scan.fetch.any fun f => markOf s f.slot && f.part.grantedAt b :=
    any_congr_mem fun f _ => congrArg (· && f.part.grantedAt b) (tabulate_get _ f.slot)
  rw [← hmarked]
  exact PerBank.get_tab _ b

theorem PerBank.ext_get {α : Type} {t u : PerBank α} (h : ∀ b, t.get b = u.get b) : t = u := by
  obtain ⟨_, _, _, _⟩ := t
  obtain ⟨_, _, _, _⟩ := u
  rw [PerBank.mk.injEq]
  exact ⟨h .b0, h .b1, h .b2, h .b3⟩

/-- The accesses of marked slots and the late ones are given up together. -/
theorem banksAfterLine_beforeLineZero (s : State) : banksAfterLine (beforeLineZero s) = banksAfterLine s := by
  refine PerBank.ext_get fun b => ?_
  have hsplit : (s.scan.fetch.any fun f => f.part.grantedAt b) =
      ((unmarkedFetch s).any (fun f => f.part.grantedAt b) ||
        s.scan.fetch.any fun f => markOf s f.slot && f.part.grantedAt b) := by
    rw [unmarkedFetch, List.any_filter]
    rw [Bool.eq_iff_iff]
    simp only [Bool.or_eq_true, List.any_eq_true, Bool.and_eq_true, Bool.not_eq_true', ← exists_or]
    refine exists_congr fun f => ?_
    cases markOf s f.slot <;> simp
  rw [banksAfterLine_get, banksAfterLine_get, beforeLineZero_bank, beforeLineZero_fetch, hsplit]
  cases (unmarkedFetch s).any (fun f => f.part.grantedAt b) <;>
    cases s.scan.fetch.any (fun f => markOf s f.slot && f.part.grantedAt b) <;> simp [giveUp_giveUp]

/-! ### The frame start -/

/-- The state after a frame start, before the idle banks decide. -/
def frameStarted (s : State) : State := ((runLine 0 (beforeLineZero s)).change countFrame).settle

theorem exec_frameStart (hready : ready s = true) (hphase : s.scan.phase = .blank)
    (hline : s.scan.lineNo + 1 = s.scan.timing.vblank) : exec .frameStart s = .next (arbitrate (frameStarted s)) := by
  have hdue : frameStartDue s = true := by simp [frameStartDue, hphase, hline]
  refine congrArg Host.Outcome.next ((whenRunning_ready _ hready).trans ?_)
  rw [if_pos hdue, startFrame_eq]
  rfl

theorem frameStarted_eq (s : State) : ∃ underruns : Vector Bool 16,
    frameStarted s = { countFrame (afterLine 0 (beforeLineZero s) underruns) with
      ports := (frameStarted s).ports, arrivals := s.arrivals.tail } ∧
    ∀ l : Fin 16, underruns[l] = lateAtFrame s l := by
  obtain ⟨underruns, hst, hunderruns⟩ := runLine_st 0 (beforeLineZero s)
  have hend : ((runLine 0 (beforeLineZero s)).change countFrame).endsNoSession :=
    (runLine_frame 0 (beforeLineZero s)).2
  refine ⟨underruns, (settle_eq_of_no_end hend).trans ?_, fun l => ?_⟩
  · rw [Act.change_st, hst]
    rfl
  · have hfresh : (beforeLineZero s).scan.underruns[l] = false := Vector.getElem_replicate l.isLt
    rw [hunderruns l, hfresh, Bool.false_or, late_beforeLineZero]

theorem runDown_takesEvents (r : Session) : r.runDown.takesEvents = r.takesEvents := by
  unfold Session.runDown
  split <;> rfl

theorem frameStarted_port (s : State) (p : PortId) :
    (frameStarted s).ports.get p = takeUnderruns s p (s.scan.frameCounter + 1) (lateAtFrame s) := by
  obtain ⟨underruns, hst, -⟩ := runLine_st 0 (beforeLineZero s)
  refine settle_underruns ?_ ?_ ?_
  · rw [Act.change_out, runLine_out, late_beforeLineZero]
    refine congrArg (List.map _) (List.flatMap_congr fun l _ => ?_)
    have hfresh : (beforeLineZero s).scan.underruns[l] = false := Vector.getElem_replicate l.isLt
    rw [hfresh, Bool.not_false, Bool.and_true]
    rfl
  · rw [Act.change_st, hst]
    rfl
  · rw [Act.change_st, hst]
    exact (congrArg Session.takesEvents (PerPort.get_tab _ p)).trans (runDown_takesEvents _)

theorem beforeLineZero_window (s : State) (n : Fin 8) : (beforeLineZero s).window n =
    (s.window n).map (beginWindow (decide (s.session.plan.output = .dark))) := tabulate_get _ n

theorem frameStarted_window (s : State) (n : Fin 8) : (frameStarted s).window n =
    (s.window n).map fun w =>
      (beginWindow (decide (s.session.plan.output = .dark)) w).afterLine (beforeLineZero s) 0 := by
  obtain ⟨underruns, heq, -⟩ := frameStarted_eq s
  rw [heq]
  refine (tabulate_get _ n).trans ?_
  rw [beforeLineZero_window, Option.map_map]
  rfl

/-- The pixels of line 0: each marked layer and each whose fetch is late in fallback. -/
def zeroPixels (s : State) : List Color :=
  composeLine s.palette s.session.plan.background
    (lineLayers s.scan.records (unmarkedFetch s) fun l => markOf s l || lateAtFrame s l) s.session.plan.timing.width

theorem linePixels_beforeLineZero (s : State) : linePixels (beforeLineZero s) = zeroPixels s := by
  have hfallback : (fun l : Fin 16 => (beforeLineZero s).scan.marks[l] || late (beforeLineZero s).scan.fetch l) =
      fun l => markOf s l || lateAtFrame s l := by
    funext l
    rw [beforeLineZero_mark, late_beforeLineZero]
  rw [linePixels, hfallback, beforeLineZero_fetch]
  rfl

theorem beginWindow_taking {dark : Bool} (hstate : w.state = .armed ∨ w.state = .running) : beginWindow dark w =
    { w with state := .running, register := 0xFFFFFF, taint := w.nextTaint || dark, nextTaint := false } := by
  have htaking : w.taking = true := by rcases hstate with h | h <;> simp [Window.taking, h]
  rw [beginWindow, if_pos htaking]
  rfl

theorem beginWindow_idle {dark : Bool} (hstate : w.state = .idle ∨ w.state = .halted) :
    beginWindow dark w = { w with nextTaint := false } := by
  have htaking : ¬w.taking = true := by rcases hstate with h | h <;> simp [Window.taking, h]
  rw [beginWindow, if_neg htaking]

/-- A window that is not RUNNING takes no part in a line start. -/
theorem afterLine_idle (s : State) (line : Nat) (hstate : w.state ≠ .running) : w.afterLine s line = w := by
  have htaint : w.tainted s line (late s.scan.fetch) = w := by
    rw [Window.tainted, decide_eq_false hstate, Bool.false_and, Bool.or_false]
  rw [Window.afterLine, htaint, Window.fed, if_neg fun hand => hstate hand.1]

/-- A window begun at a frame start, after line 0. -/
theorem afterLine_begun (s : State) (dark : Bool) (w : Window) :
    ({ w with state := .running, register := 0xFFFFFF, taint := w.nextTaint || dark, nextTaint := false } :
      Window).afterLine (beforeLineZero s) 0 =
    { w with
      state := .running, nextTaint := false
      taint := w.nextTaint || dark || underrunMeets s 0 (lateAtFrame s) w.settings
      register := if w.settings.y = 0 ∧ 0 < w.settings.h then signLine w.settings (zeroPixels s) 0xFFFFFF
        else 0xFFFFFF } := by
  have hrows : (w.settings.y ≤ 0 ∧ 0 < w.settings.y + w.settings.h) ↔ (w.settings.y = 0 ∧ 0 < w.settings.h) := by
    omega
  rw [Window.afterLine, linePixels_beforeLineZero, late_beforeLineZero]
  simp only [Window.tainted, Window.fed, decide_true, Bool.true_and, true_and, hrows]
  rfl

/-- The records and the fetch for line 1. -/
theorem nextRecords_beforeLineZero (hheight : 1 < s.session.plan.timing.height) :
    nextRecords (beforeLineZero s) 0 =
      tabulate fun l => lineRecord s.session.plan.timing.width 1 (s.slot l) := if_pos hheight

theorem nextFetch_beforeLineZero (hheight : 1 < s.session.plan.timing.height) : nextFetch (beforeLineZero s) 0 =
    fetchList s (nextRecords (beforeLineZero s) 0) (beforeLineZero s).scan.marks := if_pos hheight

end Sys2Proof.Machine
end

section
set_option Elab.async false

open Sys2Proof Sys2Proof.Machine

/-- Settles O41: the new frame begun, then line 0 taken as any other. -/
theorem frameStartBeginsTheFrame : Obligations.FrameStartBeginsTheFrame := by
  unfold Obligations.FrameStartBeginsTheFrame
  intro s hready hphase hline
  refine ⟨frameStarted s, exec_frameStart hready hphase hline, ?_⟩
  obtain ⟨underruns, heq, hunderruns⟩ := frameStarted_eq s
  intro timing fails pixels
  have hmarks : (frameStarted s).scan.marks = (beforeLineZero s).scan.marks := by rw [heq]; rfl
  have hmark : ∀ l : Fin 16, (frameStarted s).scan.marks[l] = markOf s l := fun l => by
    rw [hmarks]
    exact beforeLineZero_mark s l
  have hfails : fails = lateAtFrame s := funext fun l => by
    show (late s.scan.fetch l && !(frameStarted s).scan.marks[l]) = _
    rw [hmark, lateAtFrame]
  have hpixels : pixels = zeroPixels s := by
    show composeLine s.palette s.session.plan.background (lineLayers s.scan.records
      (s.scan.fetch.filter fun f => !(frameStarted s).scan.marks[f.slot])
      fun l => (frameStarted s).scan.marks[l] || fails l) s.session.plan.timing.width = _
    simp only [hmark, hfails]
    rfl
  refine ⟨fun l => ?_, fun l => ?_, fun p => ?_, fun hheight => ⟨?_, ?_⟩, fun hheight => ?_,
    fun n => ⟨fun hnone => ?_, fun w hw => ⟨fun hstate => ?_, fun hstate => ?_⟩⟩, fun p => ?_, ?_⟩
  · rw [hmark]
    exact markOf_iff s l
  · rw [hfails, heq]
    exact hunderruns l
  · rw [hfails]
    exact frameStarted_port s p
  · rw [heq]
    show recordsOf s timing.width 1 (nextRecords (beforeLineZero s) 0)
    rw [nextRecords_beforeLineZero hheight]
    exact recordsOf_tabulate s _ 1
  · rw [heq]
    exact nextFetch_beforeLineZero hheight
  · rw [heq]
    exact if_neg (Nat.not_lt.2 hheight.le)
  · rw [frameStarted_window, hnone, Option.map_none]
  · rw [frameStarted_window, hw, Option.map_some, beginWindow_taking hstate, afterLine_begun, hfails, hpixels]
  · rw [frameStarted_window, hw, Option.map_some, beginWindow_idle hstate, afterLine_idle]
    rcases hstate with h | h <;> simp [h]
  · rw [heq]
    exact PerPort.get_tab _ p
  · rw [heq, hpixels, ← linePixels_beforeLineZero, ← banksAfterLine_beforeLineZero]
    rfl

end
